-- ==== Sys2Proof/Word.lean ====
section
/-! DEFINITION. The value types of 00_scope.md rule R7: a byte, and the unsigned values of 16, 32 and 64 bits. -/

namespace Sys2Proof

/-- An 8-bit unsigned value (R7). -/
abbrev Byte := BitVec 8

/-- A 16-bit unsigned value (R7): param2, a checksum, a word address, a key slot. -/
abbrev U16 := BitVec 16

/-- A 32-bit value: an error register, a settle delay in ticks, a signed transport code held as its two's complement (R29). -/
abbrev U32 := BitVec 32

/-- A 64-bit unsigned value (R7): a bound of RANDOM_RANGE. -/
abbrev U64 := BitVec 64

/-- A bus target address. R51 takes 7 bits, which the source does not give (notes/assumptions/4.md). -/
abbrev BusAddr := BitVec 7

end Sys2Proof
end

