-- ==== Sys2Proof/Config.lean ====
section
/-! DEFINITION. What an instantiated block fixes (the record CFG of 00_scope.md rule R5), what the source
fixes for every block (R5, R6), and the free values: what the transport and the peer answer (20_memory.md rule R63). -/

namespace Sys2Proof

/-- The outcome the transport reports for one transaction (R61): success, or an error with an integer code. -/
inductive XOutcome where
  | ok
  | err (code : U32)
  deriving DecidableEq, Repr, Inhabited

/-- The fields of CFG that R5 leaves OPEN, each at its width. `maxRetry` has no effect (R223); `stError` is read by no rule (R96). -/
structure Params where
  stWake : Byte
  stError : Byte
  sleepToken : Byte
  opRead : Byte
  opWrite : Byte
  opRandom : Byte
  opSha : Byte
  opAes : Byte
  zoneConfig : Byte
  zoneOtp : Byte
  zoneData : Byte
  lockWordAddr : U16
  lockIdxCfg : BitVec 2
  lockIdxData : BitVec 2
  maxCmdSize : Byte
  busAddr : BusAddr
  wakeAddr : BusAddr
  /-- CMD_PREFIX, zero or one byte (R85). -/
  cmdPrefix : Option Byte
  tWake : U32
  tSleep : U32
  tRead : U32
  tRandom : U32
  tSha : U32
  tAes : U32
  xportIo : U32
  xportNoresp : U32
  maxRetry : Nat
  deriving DecidableEq, Repr, Inhabited

/-- The constraints of R343 step 1. -/
abbrev Params.Valid (p : Params) : Prop :=
  71 ≤ p.maxCmdSize.toNat ∧ p.stWake ≠ 0 ∧ p.lockIdxCfg ≠ p.lockIdxData ∧
    p.xportIo ≠ p.xportNoresp ∧ p.xportIo ≠ 0 ∧ p.xportNoresp ≠ 0

/-- CFG (R5, R34). A record outside the constraints of R343 is no CFG (93_implementation_defined.md U17), so the type excludes it. -/
structure Cfg extends Params where
  valid : toParams.Valid
  deriving DecidableEq, Repr

namespace Config

/-- CRC_POLY (R5). -/
def crcPoly : U16 := 0x8005#16
/-- CRC_INIT (R5). -/
def crcInit : U16 := 0x0000#16
/-- WAKE_TOKEN (R5, R89). -/
def wakeToken : Byte := 0x00#8
/-- ST_SUCCESS (R5, R96). -/
def stSuccess : Byte := 0x00#8
/-- RESULT_CAP (R32). -/
def resultCap : Nat := 255
/-- The largest expected payload length of an exchange (R160, R222). -/
def maxExpected : Nat := 252
/-- The 4-byte words of the configuration zone (R6, R53). -/
def configWords : Nat := 32
/-- The payload of a hash update (R6). -/
def shaChunk : Nat := 64
/-- The block of the cipher (R6). -/
def aesBlock : Nat := 16
/-- The payload of a random response (R6). -/
def randomBytes : Nat := 32

/-- The reference configuration CFG_REF of R5. PRESUMED: the values R5 gives it are general knowledge, not in the source
(93_implementation_defined.md K1-K9); spec/opcode_table.json writes its wire rows with them. DESIGN CHOICE: R5 gives CFG_REF
no value for T_WAKE, T_SLEEP, T_READ, T_RANDOM, T_SHA, T_AES ("none needed") and MAX_RETRY ("n/a"), and K1-K9 list none
of them; the model sets all seven to 0 (notes/assumptions/23.md). No rule reads cfgRef. -/
def cfgRef : Cfg where
  stWake := 0x11
  stError := 0x0F
  sleepToken := 0x01
  opRead := 0x02
  opWrite := 0x12
  opRandom := 0x1B
  opSha := 0x47
  opAes := 0x51
  zoneConfig := 0x00
  zoneOtp := 0x01
  zoneData := 0x02
  lockWordAddr := 0x0015
  lockIdxCfg := 3
  lockIdxData := 2
  maxCmdSize := 151
  busAddr := 0x60
  wakeAddr := 0x60
  cmdPrefix := none
  tWake := 0
  tSleep := 0
  tRead := 0
  tRandom := 0
  tSha := 0
  tAes := 0
  xportIo := 5
  xportNoresp := 121
  maxRetry := 0
  valid := by decide

/-- The OPEN parameters the block was instantiated with: unknown values (R5, 92_eei_decisions.md D8-D13, D21, D33). -/
opaque params : Params

/-- The CFG of the block after reset (R343 step 1): the unknown parameters where they meet the constraints. A block
built outside them is outside the spec (U17), so what stands there does not matter (notes/assumptions/1.md). -/
def cfg : Cfg := if h : params.Valid then { params with valid := h } else cfgRef

/-- The free outcome of the n-th transaction: no rule constrains what the transport reports (R63, U1). -/
opaque freeOutcome : Nat → XOutcome

/-- The free byte i of the n-th transaction's answer: no rule constrains what the peer returns (R63, U1, U2). -/
opaque freeByte : Nat → Nat → Byte

end Config
end Sys2Proof
end

