-- ==== Sys2Proof/Machine/Bytes.lean ====
section
/-! DEFINITION. Byte orders (00_scope.md rule R8, 20_memory.md rule R56) and the reading of fields from a byte sequence. -/

namespace Sys2Proof.Machine

/-- `le16(v)`: the low byte first (R8). -/
def le16 (v : U16) : List Byte := [v.extractLsb' 0 8, v.extractLsb' 8 8]

/-- `unle16(s)`: the first two bytes, the low byte first (R8). -/
def unle16 (s : List Byte) : U16 := s.getD 1 0 ++ s.getD 0 0

/-- A 32-bit operand field of a descriptor, the low byte first (notes/assumptions/5.md). -/
def le32 (v : U32) : List Byte := le16 (v.extractLsb' 0 16) ++ le16 (v.extractLsb' 16 16)

/-- The 32-bit value whose bytes, low first, begin s (notes/assumptions/5.md). -/
def unle32 (s : List Byte) : U32 := unle16 (s.drop 2) ++ unle16 s

/-- A 64-bit operand field of a descriptor, the low byte first (notes/assumptions/5.md). -/
def le64 (v : U64) : List Byte := le32 (v.extractLsb' 0 32) ++ le32 (v.extractLsb' 32 32)

/-- The 64-bit value whose bytes, low first, begin s (notes/assumptions/5.md). -/
def unle64 (s : List Byte) : U64 := unle32 (s.drop 4) ++ unle32 s

/-- The exact value of a byte sequence read big-endian: each step shifts what stands before by one byte. -/
def beNat (s : List Byte) : Nat := s.foldl (fun acc b => acc * 256 + b.toNat) 0

/-- `be64(s)` of an 8-byte sequence (R8). -/
def be64 (s : List Byte) : U64 := BitVec.ofNat 64 (beNat s)

/-- `tobe64(x)`: the high byte first (R8). -/
def tobe64 (x : U64) : List Byte :=
  [x.extractLsb' 56 8, x.extractLsb' 48 8, x.extractLsb' 40 8, x.extractLsb' 32 8,
   x.extractLsb' 24 8, x.extractLsb' 16 8, x.extractLsb' 8 8, x.extractLsb' 0 8]

/-- A 1-bit field of a descriptor in a byte of its own (notes/assumptions/5.md). -/
def bitByte (b : Bool) : Byte := if b then 1 else 0

/-- Take one byte off a record. -/
def rd8 : List Byte → Option (Byte × List Byte)
  | b :: r => some (b, r)
  | [] => none

/-- Take n bytes off a record, or nothing where it is shorter. -/
def rdN (n : Nat) (s : List Byte) : Option (List Byte × List Byte) :=
  if n ≤ s.length then some (s.take n, s.drop n) else none

/-- Take a 16-bit field off a record. -/
def rd16 (s : List Byte) : Option (U16 × List Byte) := (rdN 2 s).map fun x => (unle16 x.1, x.2)

/-- Take a 32-bit field off a record. -/
def rd32 (s : List Byte) : Option (U32 × List Byte) := (rdN 4 s).map fun x => (unle32 x.1, x.2)

/-- Take a 64-bit field off a record. -/
def rd64 (s : List Byte) : Option (U64 × List Byte) := (rdN 8 s).map fun x => (unle64 x.1, x.2)

/-- Take a 1-bit field off a record: its byte holds 0 or 1. -/
def rdBit : List Byte → Option (Bool × List Byte)
  | b :: r => if b = 0 then some (false, r) else if b = 1 then some (true, r) else none
  | [] => none

/-- Take a 2-bit field off a record: its byte holds 0 to 3. -/
def rd2 : List Byte → Option (BitVec 2 × List Byte)
  | b :: r => if b.toNat < 4 then some (b.extractLsb' 0 2, r) else none
  | [] => none

end Sys2Proof.Machine
end

