-- ==== Sys2Proof/Machine/Checksum.lean ====
section
/-! DEFINITION. The CRC function and the validation of a trailer (40_checksum.md rules R120-R127). -/

namespace Sys2Proof.Machine

/-- One bit step `CrcBit(reg, d)` (R121): the top bit is read before the shift, the polynomial applied after it. -/
def crcBit (reg : U16) (d : Bool) : U16 :=
  if d != reg.msb then (reg <<< 1) ^^^ Config.crcPoly else reg <<< 1

/-- One byte step `CrcByte(reg, b)`: the bits of b from b[0] to b[7] (R122, 90_conflicts.md C1). -/
def crcByte (reg : U16) (b : Byte) : U16 :=
  (List.range 8).foldl (fun r i => crcBit r (b.getLsbD i)) reg

/-- Hand r on as a literal: `evaluated r k` is `k r` (Laws/Checksum.lean), and a kernel that evaluates it computes r once. -/
def evaluated {α : Type} (r : U16) (k : U16 → α) : α :=
  match r.toNat with
  | 0 => k 0#16
  | n + 1 => k (BitVec.ofNat 16 (n + 1))

/-- The register after the bytes of s, from reg: the loop of R123. -/
def crcRun (reg : U16) : List Byte → U16
  | [] => reg
  | b :: s => evaluated (crcByte reg b) fun r => crcRun r s

/-- `CRC16(s)` (R123). -/
def crc16 (s : List Byte) : U16 := crcRun Config.crcInit s

/-- The bytes of f that its trailer covers: all but the last two (R127). -/
def covered (f : List Byte) : List Byte := f.take (f.length - 2)

/-- The trailer of f: its last two bytes, read little-endian (R127). -/
def trailer (f : List Byte) : U16 := unle16 (f.drop (f.length - 2))

/-- `Validate(f)` (R127). -/
def validate (f : List Byte) : Bool :=
  if f.length < 3 then false else crc16 (covered f) == trailer f

/-- s followed by its own checksum trailer (R83, R124). -/
def withTrailer (s : List Byte) : List Byte := s ++ le16 (crc16 s)

end Sys2Proof.Machine
end

