-- ==== Sys2Proof/Syntax.lean ====
section
/-! DEFINITION. The instructions: one constructor per row of spec/opcode_table.json (30_encoding.md rules R89-R99). -/

namespace Sys2Proof

/-- The payload operand PL (R98). A present payload carries PLEN bytes, so PLEN is their number (R102); an absent one
carries none, whatever PLEN says. -/
inductive Payload where
  | absent (plen : Byte)
  | present (data : List Byte)
  deriving DecidableEq, Repr

/-- The fifteen host operations (R99), the eight wire commands (R92, R97) and the two wire tokens (R89, R90). -/
inductive Instr where
  | crcCompute (data : List Byte)
  | crcValidate (data : List Byte)
  | frameBuild (opc p1 : Byte) (p2 : U16) (pl : Payload)
  | wake
  | sleep
  | transact (opc p1 : Byte) (p2 : U16) (pl : Payload) (n : Byte) (chk ex : Bool) (dly : U32)
  | readWord (zsel : BitVec 2) (addr : U16)
  | readSerial
  | readConfigZone
  | readLockStatus
  | random (k : Byte)
  | randomRange (lo hi : U64)
  | hash (data : List Byte)
  | aesEncrypt (slot : U16) (blk : List Byte)
  | aesDecrypt (slot : U16) (blk : List Byte)
  /-- READ: PARAM1 is the zone code, PARAM2 the word address (R92, R95). -/
  | cmdRead (zone : Byte) (addr : U16)
  /-- A frame with OPCODE = OP_WRITE, carried by the raw dispatcher only, with the dispatcher's arguments (R97, R222). -/
  | cmdWrite (p1 : Byte) (p2 : U16) (pl : Payload) (n : Byte) (chk ex : Bool) (dly : U32)
  | cmdRandom
  | cmdShaStart
  | cmdShaUpdate (chunk : List Byte)
  | cmdShaEnd (tail : List Byte)
  | cmdAesEnc (slot : U16) (blk : List Byte)
  | cmdAesDec (slot : U16) (blk : List Byte)
  | tokenWake
  | tokenSleep
  deriving DecidableEq, Repr

end Sys2Proof
end

