-- ==== Sys2Proof/Machine/Framer.lean ====
section
/-! DEFINITION. The command frame (30_encoding.md rules R80-R85) and the framer's checks (41_framer.md rules R140-R143). -/

namespace Sys2Proof.Machine

/-- The bytes a payload operand carries: none where it is absent (R98). -/
def payloadBytes : Payload → List Byte
  | .absent _ => []
  | .present data => data

/-- The frame before its trailer: count, opcode, param1, param2 little-endian, payload (R80-R82). -/
def frameBody (opc p1 : Byte) (p2 : U16) (data : List Byte) : List Byte :=
  [BitVec.ofNat 8 (7 + data.length), opc, p1] ++ le16 p2 ++ data

/-- The frame with its checksum trailer (R83, R143). -/
def frameOf (opc p1 : Byte) (p2 : U16) (data : List Byte) : List Byte :=
  withTrailer (frameBody opc p1 p2 data)

/-- The framer accepts the payload: the pairing check of R141 and the length check of R142. -/
def payloadAccepted (maxCmdSize : Byte) : Payload → Bool
  | .absent plen => plen == 0
  | .present data => data.length != 0 && data.length ≤ maxCmdSize.toNat - 7

end Sys2Proof.Machine
end

