-- ==== Sys2Proof/WellFormed.lean ====
section
/-! DEFINITION. When a term of Instr stands for bits: every length fits the field that says it (30_encoding.md rules
R98, R102), and a wire command's payload has the length its row gives (R92, R93). -/

namespace Sys2Proof

/-- DATA has a 32-bit length (R98). -/
def dataFits (data : List Byte) : Bool := data.length < 2 ^ 32

/-- PL and BLK have an 8-bit length (R98). -/
def shortFits (data : List Byte) : Bool := data.length < 2 ^ 8

/-- A present payload's length fits PLEN (R98). The pairing of PRESENT and PLEN is no condition here (R102). -/
def Payload.fits : Payload → Bool
  | .absent _ => true
  | .present data => shortFits data

/-- A payload that a frame can carry: absent with length 0, or 1 to 248 bytes (R80, R81, R141). -/
def Payload.framable : Payload → Bool
  | .absent plen => plen == 0
  | .present data => 0 < data.length && data.length ≤ 248

/-- The well-formed instructions. -/
def wellFormed : Instr → Bool
  | .crcCompute data => dataFits data
  | .crcValidate data => dataFits data
  | .frameBuild _ _ _ pl => pl.fits
  | .wake => true
  | .sleep => true
  | .transact _ _ _ pl _ _ _ _ => pl.fits
  | .readWord _ _ => true
  | .readSerial => true
  | .readConfigZone => true
  | .readLockStatus => true
  | .random _ => true
  | .randomRange _ _ => true
  | .hash data => dataFits data
  | .aesEncrypt _ blk => shortFits blk
  | .aesDecrypt _ blk => shortFits blk
  | .cmdRead _ _ => true
  | .cmdWrite _ _ pl _ _ _ _ => pl.framable
  | .cmdRandom => true
  | .cmdShaStart => true
  | .cmdShaUpdate chunk => chunk.length == Config.shaChunk
  | .cmdShaEnd tail => tail.length < Config.shaChunk
  | .cmdAesEnc _ blk => blk.length == Config.aesBlock
  | .cmdAesDec _ blk => blk.length == Config.aesBlock
  | .tokenWake => true
  | .tokenSleep => true

end Sys2Proof
end

