-- ==== Sys2Proof/Decode.lean ====
section
/-! DEFINITION. Reading an instruction from bytes, and writing one: the host descriptors (30_encoding.md rules R98-R103)
and the wire units (R80-R83, R89-R97). The descriptor is a record with no memory layout in the spec; the bytes it is
written as here are the model's (notes/assumptions/5.md). -/

namespace Sys2Proof

open Machine

/-- What is handed to the block to be read: a descriptor at the host port (R98), or a wire unit (a frame or a token). -/
inductive Request where
  | descriptor (bytes : List Byte)
  | wire (bytes : List Byte)
  deriving DecidableEq, Repr

/-- Why bytes are no instruction. -/
inductive DecodeError where
  /-- No byte at all. -/
  | emptyRecord
  /-- A descriptor that is not well-formed (R102): it ends before its fields do, or a 1-bit or 2-bit field holds more. -/
  | malformedDescriptor
  /-- A descriptor that is not well-formed (R102): bytes follow its last field. -/
  | trailingBytes
  /-- A wire unit of one byte that is neither token (R89, R90). -/
  | unknownToken
  /-- A frame whose count byte is not its length (R81). -/
  | frameCount
  /-- A frame whose trailer is not its checksum (R83). -/
  | frameChecksum
  /-- A frame that is no row of the opcode table: the block can send it only as the frame of a TRANSACT (R97). -/
  | unknownCommand
  deriving DecidableEq, Repr

/-- What the bytes of a request are. -/
inductive Decoded where
  | instr (i : Instr)
  /-- A descriptor whose HOP is unassigned (R100): the port accepts it, and it is no row of the table. -/
  | unassigned (hop : Byte)
  | rejected (why : DecodeError)
  deriving DecidableEq, Repr

/-! ### Host descriptors -/

/-- DATA: a 32-bit length, then that many bytes (R98). -/
def rdData (s : List Byte) : Option (List Byte × List Byte) :=
  (rd32 s).bind fun x => rdN x.1.toNat x.2

/-- BLK: an 8-bit length, then that many bytes (R98). -/
def rdBlock (s : List Byte) : Option (List Byte × List Byte) :=
  (rd8 s).bind fun x => rdN x.1.toNat x.2

/-- PL: PRESENT, PLEN, then PLEN bytes where PRESENT is 1 (R98). -/
def rdPayload (s : List Byte) : Option (Payload × List Byte) :=
  (rdBit s).bind fun x =>
    if x.1 then (rdBlock x.2).map fun y => (.present y.1, y.2)
    else (rd8 x.2).map fun y => (.absent y.1, y.2)

/-- The frame operands OPC, P1, P2, PL of FRAME_BUILD and TRANSACT (R99). -/
def rdFrame (s : List Byte) : Option ((Byte × Byte × U16 × Payload) × List Byte) :=
  (rd8 s).bind fun o => (rd8 o.2).bind fun a => (rd16 a.2).bind fun b => (rdPayload b.2).map fun p =>
    ((o.1, a.1, b.1, p.1), p.2)

/-- The dispatcher's operands N, CHK, EX, DLY (R99). -/
def rdReceive (s : List Byte) : Option ((Byte × Bool × Bool × U32) × List Byte) :=
  (rd8 s).bind fun n => (rdBit n.2).bind fun c => (rdBit c.2).bind fun e => (rd32 e.2).map fun d =>
    ((n.1, c.1, e.1, d.1), d.2)

/-- The operand fields of the operation with code hop (R99), and the rest of the record; no meaning where hop is unassigned. -/
def rdOperands (hop : Byte) (s : List Byte) : Option (Instr × List Byte) :=
  if hop = 0x01 then (rdData s).map fun d => (.crcCompute d.1, d.2)
  else if hop = 0x02 then (rdData s).map fun d => (.crcValidate d.1, d.2)
  else if hop = 0x03 then (rdFrame s).map fun f => (.frameBuild f.1.1 f.1.2.1 f.1.2.2.1 f.1.2.2.2, f.2)
  else if hop = 0x10 then some (.wake, s)
  else if hop = 0x11 then some (.sleep, s)
  else if hop = 0x20 then (rdFrame s).bind fun f => (rdReceive f.2).map fun r =>
    (.transact f.1.1 f.1.2.1 f.1.2.2.1 f.1.2.2.2 r.1.1 r.1.2.1 r.1.2.2.1 r.1.2.2.2, r.2)
  else if hop = 0x30 then (rd2 s).bind fun z => (rd16 z.2).map fun a => (.readWord z.1 a.1, a.2)
  else if hop = 0x31 then some (.readSerial, s)
  else if hop = 0x32 then some (.readConfigZone, s)
  else if hop = 0x33 then some (.readLockStatus, s)
  else if hop = 0x40 then (rd8 s).map fun k => (.random k.1, k.2)
  else if hop = 0x41 then (rd64 s).bind fun a => (rd64 a.2).map fun b => (.randomRange a.1 b.1, b.2)
  else if hop = 0x50 then (rdData s).map fun d => (.hash d.1, d.2)
  else if hop = 0x60 then (rd16 s).bind fun a => (rdBlock a.2).map fun b => (.aesEncrypt a.1 b.1, b.2)
  else if hop = 0x61 then (rd16 s).bind fun a => (rdBlock a.2).map fun b => (.aesDecrypt a.1 b.1, b.2)
  else none

/-- The HOP values of R99, each with how many bytes its operand fields take when every length field is 0. -/
def hopTable : List (Byte × Nat) :=
  [(0x01, 4), (0x02, 4), (0x03, 6), (0x10, 0), (0x11, 0), (0x20, 13), (0x30, 3), (0x31, 0), (0x32, 0), (0x33, 0),
   (0x40, 1), (0x41, 16), (0x50, 4), (0x60, 3), (0x61, 3)]

/-- The HOP value is one of R99; every other value is unassigned (R100). -/
def hopAssigned (hop : Byte) : Bool := hopTable.any fun row => row.1 == hop

/-- Read a descriptor (R98-R102). An unassigned HOP is accepted whatever follows it (notes/assumptions/5.md). -/
def decodeDescriptor : List Byte → Decoded
  | [] => .rejected .emptyRecord
  | hop :: s =>
    if hopAssigned hop then
      match rdOperands hop s with
      | none => .rejected .malformedDescriptor
      | some (i, []) => .instr i
      | some (_, _ :: _) => .rejected .trailingBytes
    else .unassigned hop

/-! ### Wire units -/

/-- The table row of a frame with these fields, `extra` being the bytes after it (only CMD_WRITE has any: the dispatcher's
arguments, notes/assumptions/6.md). Where the OPEN opcodes coincide, the first row whose shape fits is taken. -/
def frameInstr (c : Cfg) (opc p1 : Byte) (p2 : U16) (data extra : List Byte) : Option Instr :=
  if opc = c.opRead ∧ data = [] ∧ extra = [] then some (.cmdRead p1 p2)
  else if opc = c.opRandom ∧ p1 = 0 ∧ p2 = 0 ∧ data = [] ∧ extra = [] then some .cmdRandom
  else if opc = c.opSha ∧ p1 = 0 ∧ p2 = 0 ∧ data = [] ∧ extra = [] then some .cmdShaStart
  else if opc = c.opSha ∧ p1 = 1 ∧ p2 = 0 ∧ data.length = Config.shaChunk ∧ extra = [] then some (.cmdShaUpdate data)
  else if opc = c.opSha ∧ p1 = 2 ∧ p2.toNat = data.length ∧ data.length < Config.shaChunk ∧ extra = [] then
    some (.cmdShaEnd data)
  else if opc = c.opAes ∧ p1 = 0 ∧ data.length = Config.aesBlock ∧ extra = [] then some (.cmdAesEnc p2 data)
  else if opc = c.opAes ∧ p1 = 1 ∧ data.length = Config.aesBlock ∧ extra = [] then some (.cmdAesDec p2 data)
  else if opc = c.opWrite then
    match rdReceive extra with
    | some (r, []) =>
      some (.cmdWrite p1 p2 (if data = [] then .absent 0 else .present data) r.1 r.2.1 r.2.2.1 r.2.2.2)
    | _ => none
  else none

/-- Read a wire unit of at least two bytes: a frame of the length its count says (R81, R103), then what follows it. -/
def decodeFrame (c : Cfg) (bytes : List Byte) : Decoded :=
  let n := (bytes.getD 0 0).toNat
  let f := bytes.take n
  if n < 7 ∨ f.length ≠ n then .rejected .frameCount
  else if validate f then
    match frameInstr c (f.getD 1 0) (f.getD 2 0) (unle16 (f.drop 3)) ((f.drop 5).take (n - 7)) (bytes.drop n) with
    | some i => .instr i
    | none => .rejected .unknownCommand
  else .rejected .frameChecksum

/-- Read a wire unit: one byte is a token (R89, R90, R103), anything longer a frame. -/
def decodeWire (c : Cfg) : List Byte → Decoded
  | [] => .rejected .emptyRecord
  | [b] =>
    if b = Config.wakeToken then .instr .tokenWake
    else if b = c.sleepToken then .instr .tokenSleep
    else .rejected .unknownToken
  | b :: b' :: s => decodeFrame c (b :: b' :: s)

/-- Read a request. -/
def decode (c : Cfg) : Request → Decoded
  | .descriptor bytes => decodeDescriptor bytes
  | .wire bytes => decodeWire c bytes

/-! ### The encoder -/

/-- DATA as a descriptor carries it (R98). -/
def encData (data : List Byte) : List Byte := le32 (BitVec.ofNat 32 data.length) ++ data

/-- BLK as a descriptor carries it (R98). -/
def encBlock (data : List Byte) : List Byte := BitVec.ofNat 8 data.length :: data

/-- PL as a descriptor carries it (R98). -/
def encPayload : Payload → List Byte
  | .absent plen => [0, plen]
  | .present data => 1 :: encBlock data

/-- N, CHK, EX, DLY as a descriptor carries them (R98). -/
def encReceive (n : Byte) (chk ex : Bool) (dly : U32) : List Byte := [n, bitByte chk, bitByte ex] ++ le32 dly

/-- The bytes an instruction is written as: the descriptor of a host operation (R99), the frame or token of a wire unit (R89-R97). -/
def encode (c : Cfg) : Instr → Request
  | .crcCompute data => .descriptor (0x01 :: encData data)
  | .crcValidate data => .descriptor (0x02 :: encData data)
  | .frameBuild opc p1 p2 pl => .descriptor ([0x03, opc, p1] ++ le16 p2 ++ encPayload pl)
  | .wake => .descriptor [0x10]
  | .sleep => .descriptor [0x11]
  | .transact opc p1 p2 pl n chk ex dly =>
    .descriptor ([0x20, opc, p1] ++ le16 p2 ++ encPayload pl ++ encReceive n chk ex dly)
  | .readWord zsel addr => .descriptor ([0x30, zsel.setWidth 8] ++ le16 addr)
  | .readSerial => .descriptor [0x31]
  | .readConfigZone => .descriptor [0x32]
  | .readLockStatus => .descriptor [0x33]
  | .random k => .descriptor [0x40, k]
  | .randomRange lo hi => .descriptor (0x41 :: (le64 lo ++ le64 hi))
  | .hash data => .descriptor (0x50 :: encData data)
  | .aesEncrypt slot blk => .descriptor (0x60 :: (le16 slot ++ encBlock blk))
  | .aesDecrypt slot blk => .descriptor (0x61 :: (le16 slot ++ encBlock blk))
  | .cmdRead zone addr => .wire (frameOf c.opRead zone addr [])
  | .cmdWrite p1 p2 pl n chk ex dly => .wire (frameOf c.opWrite p1 p2 (payloadBytes pl) ++ encReceive n chk ex dly)
  | .cmdRandom => .wire (frameOf c.opRandom 0 0 [])
  | .cmdShaStart => .wire (frameOf c.opSha 0 0 [])
  | .cmdShaUpdate chunk => .wire (frameOf c.opSha 1 0 chunk)
  | .cmdShaEnd tail => .wire (frameOf c.opSha 2 (BitVec.ofNat 16 tail.length) tail)
  | .cmdAesEnc slot blk => .wire (frameOf c.opAes 0 slot blk)
  | .cmdAesDec slot blk => .wire (frameOf c.opAes 1 slot blk)
  | .tokenWake => .wire [Config.wakeToken]
  | .tokenSleep => .wire [c.sleepToken]

/-- The OPEN opcodes and tokens tell the wire units apart, as in CFG_REF. No rule of the spec requires it: the block
writes wire units and never reads one (R97). -/
abbrev Cfg.WireDistinct (c : Cfg) : Prop :=
  [c.opRead, c.opWrite, c.opRandom, c.opSha, c.opAes].Nodup ∧ c.sleepToken ≠ Config.wakeToken

/-! ### The words of the opcode table -/

/-- The payload length a wire command has when its table word is all that is given: what its row fixes (R92), else none. -/
def tablePayload (c : Cfg) (opc p1 : Byte) : Nat :=
  if opc = c.opSha ∧ p1 = 1 then Config.shaChunk
  else if opc = c.opAes ∧ (p1 = 0 ∨ p1 = 1) then Config.aesBlock
  else 0

/-- The request that an opcode-table word stands for, operand bits zero (notes/assumptions/8.md). A word of 8 bits is a
HOP, or the token of that value where no operation has it as its HOP; a word of 16 bits is OPCODE in bits 15:8 and PARAM1
in bits 7:0, completed to a frame with the count and trailer R80 gives it. -/
def tableRequest (nbits w : Nat) : Request :=
  let c := Config.cfgRef
  if nbits ≤ 8 then
    let b : Byte := BitVec.ofNat 8 w
    match hopTable.find? fun row => row.1 == b with
    | some row => .descriptor (b :: List.replicate row.2 0)
    | none => if b = Config.wakeToken ∨ b = c.sleepToken then .wire [b] else .descriptor [b]
  else
    let opc : Byte := BitVec.ofNat 8 (w / 256)
    let p1 : Byte := BitVec.ofNat 8 w
    .wire (frameOf opc p1 0 (List.replicate (tablePayload c opc p1) 0) ++
      (if opc = c.opWrite then encReceive 0 false false 0 else []))

/-- The instruction the decoder reads from an opcode-table word (with the table's own CFG_REF values for the wire rows). -/
def decodeTableWord (nbits w : Nat) : Option Instr :=
  match decode Config.cfgRef (tableRequest nbits w) with
  | .instr i => some i
  | _ => none

end Sys2Proof
end

