-- ==== Sys2Proof/Machine/State.lean ====
section
/-! DEFINITION. The block's state (10_state.md rules R20-R41) and what the model keeps beside it: the oracle, the requests
still to be read and the trace; and CFG, the parameter it runs under. Every field is plain data. -/

namespace Sys2Proof.Machine

/-- The session states of R23; the value 0b11 that no rule writes is no constructor. -/
inductive Session where
  | asleep
  | awake
  | faulted
  deriving DecidableEq, Repr

/-- The sequencer phases of R35. -/
inductive Phase where
  | idle
  | send
  | settle
  | recv
  deriving DecidableEq, Repr

/-- One scripted answer of the oracle (R63, R324): an outcome and, for a receive, the first bytes of its answer. -/
structure Answer where
  outcome : XOutcome
  bytes : List Byte
  deriving DecidableEq, Repr

/-- The trace events of R61-R65. -/
inductive Event where
  | send (addr : BusAddr) (bytes : List Byte) (outcome : XOutcome)
  | wait (ticks : U32)
  | recv (addr : BusAddr) (len : Nat) (outcome : XOutcome) (bytes : List Byte)
  deriving DecidableEq, Repr

/-- The block has no fault that stops it: every accepted operation completes with an outcome code (R300). Safe: no
constructor, so nothing raises one. -/
inductive Fault where
  deriving DecidableEq, Repr

/-- Why the model gives a step no meaning. -/
inductive Refusal where
  /-- Raised by an arm of exec whose instruction has no meaning yet: none. Safe. -/
  | notModelled (mnemonic : String)
  /-- Raised by step where a request's bytes are no instruction (R102, 93_implementation_defined.md U12: no port carries
  them). Safe: the block has no behaviour there. -/
  | notAnInstruction (why : DecodeError)
  deriving DecidableEq, Repr

/-- The block, CFG apart. The fields to `acc` are the spec's, exactly those of R20 (TXLEN, RXLEN and RESULT_LEN are the
lengths of their lists); the fields from `oracle` on are the model's. -/
structure Block where
  /-- SESSION (R23). -/
  session : Session
  /-- STAT.BUSY (R25). -/
  busy : Bool
  /-- ERR0 (R27). -/
  err0 : U32
  /-- ERR1 (R28). -/
  err1 : U32
  /-- ERR2 (R29). -/
  err2 : U32
  /-- RESULT with RESULT_LEN (R32). -/
  result : List Byte
  /-- PHASE (R35). -/
  phase : Phase
  /-- TIMER, in ticks (R36). -/
  timer : Nat
  /-- CRCREG (R37). -/
  crcReg : U16
  /-- TXBUF with TXLEN (R38). -/
  txBuf : List Byte
  /-- RXBUF with RXLEN (R39). -/
  rxBuf : List Byte
  /-- CTX.STEP (R40). -/
  ctxStep : Nat
  /-- CTX.ACC (R40). -/
  acc : List Byte
  /-- The oracle's scripted answers, in the order they are asked for; after them every answer is free (R63). -/
  oracle : List Answer
  /-- How many transactions the oracle has answered: it numbers the free answers. -/
  asked : Nat
  /-- What is still to be handed to the block, in order: the host's program (R22). -/
  requests : List Request
  /-- The trace, oldest event first (R65). -/
  trace : List Event
  deriving DecidableEq, Repr

/-- A block together with the parameter of the whole machine it runs under (R34). The parameter stands beside the block
because step is one function of one state; `machine c` (Machine/Parameter.lean) takes it as a parameter outright, and
the two are the same machine (notes/assumptions/1.md). -/
structure State extends Block where
  /-- CFG, read by the rules and written by none (R34). -/
  cfg : Cfg
  deriving DecidableEq, Repr

/-- The block instantiated with c (R34, R343 step 1). -/
def Block.under (b : Block) (c : Cfg) : State := { b with cfg := c }

/-- The block right after reset, whatever its CFG (R42, R341): its bus handle just opened, no event yet (R340). -/
def Block.reset : Block where
  session := .asleep
  busy := false
  err0 := 0
  err1 := 0
  err2 := 0
  result := []
  phase := .idle
  timer := 0
  crcReg := 0
  txBuf := []
  rxBuf := []
  ctxStep := 0
  acc := []
  oracle := []
  asked := 0
  requests := []
  trace := []

/-- The machine right after reset: the block as R42 says, its CFG fixed before (R343 step 1). -/
def State.reset : State := Block.reset.under Config.cfg

end Sys2Proof.Machine
end

