-- ==== Sys2Proof/Machine/Flags.lean ====
section
/-! DEFINITION. The packed host-readable registers (10_state.md rules R23-R32) and the error codes with what each
records (R30, 60_exceptions.md rules R301-R310). -/

namespace Sys2Proof.Machine

/-- The 2-bit encoding of SESSION (R23). -/
def Session.code : Session → BitVec 2
  | .asleep => 0b00#2
  | .awake => 0b01#2
  | .faulted => 0b10#2

/-- STAT as the host reads it: BUSY in bit 0, SESSION in bits 2:1, bits 7:3 zero (R26). -/
def stat (s : State) : Byte := 0#5 ++ s.session.code ++ BitVec.ofBool s.busy

/-- RESULT_LEN (R32). -/
def resultLen (s : State) : Nat := s.result.length

/-- RESULT[i] as the host reads it; an element at or beyond RESULT_LEN does not exist (R32, 93_implementation_defined.md U10). -/
def readResult (s : State) (i : Nat) : Option Byte := s.result[i]?

/-- ERR0 from its fields: reserved bits 31:24 and 7:4 are zero (R27). -/
def packErr0 (code : BitVec 4) (status count : Byte) : U32 := 0#8 ++ count ++ status ++ 0#4 ++ code

/-- ERR1 from its fields: CRC_CALC in bits 31:16, CRC_RX in bits 15:0 (R28). -/
def packErr1 (crcRx crcCalc : U16) : U32 := crcCalc ++ crcRx

/-- ERR0.CODE (R27). -/
def errCode (err0 : U32) : BitVec 4 := err0.extractLsb' 0 4

/-- ERR0.STATUS (R27). -/
def errStatus (err0 : U32) : Byte := err0.extractLsb' 8 8

/-- ERR0.COUNT (R27). -/
def errCount (err0 : U32) : Byte := err0.extractLsb' 16 8

/-- ERR1.CRC_RX (R28). -/
def errCrcRx (err1 : U32) : U16 := err1.extractLsb' 0 16

/-- ERR1.CRC_CALC (R28). -/
def errCrcCalc (err1 : U32) : U16 := err1.extractLsb' 16 16

/-- The errors `raise E(info)` can name, each with its diagnostic fields (R301-R310). -/
inductive Err where
  | invalidArgument
  | notAwake
  | transport (xport : U32)
  | malformedFrame (count : Byte)
  | insufficientData (count : Byte)
  | integrity (crcRx crcCalc : U16)
  | deviceStatus (status : Byte)
  | emptySuccess
  | wakeFailure (count status : Byte)
  | domainDecode
  deriving DecidableEq, Repr

/-- The value of ERR0.CODE (R30). -/
def Err.code : Err → BitVec 4
  | .invalidArgument => 1
  | .notAwake => 2
  | .transport _ => 3
  | .malformedFrame _ => 4
  | .insufficientData _ => 5
  | .integrity _ _ => 6
  | .deviceStatus _ => 7
  | .emptySuccess => 8
  | .wakeFailure _ _ => 9
  | .domainDecode => 10

/-- What ERR0.STATUS records (R27). -/
def Err.status : Err → Byte
  | .deviceStatus status => status
  | .emptySuccess => Config.stSuccess
  | .wakeFailure _ status => status
  | _ => 0

/-- What ERR0.COUNT records (R27). -/
def Err.count : Err → Byte
  | .malformedFrame count => count
  | .insufficientData count => count
  | .wakeFailure count _ => count
  | _ => 0

/-- ERR0 after the error (R27, R31). -/
def Err.err0 (e : Err) : U32 := packErr0 e.code e.status e.count

/-- ERR1 after the error: written by INTEGRITY, else 0 (R28). -/
def Err.err1 : Err → U32
  | .integrity crcRx crcCalc => packErr1 crcRx crcCalc
  | _ => 0

/-- ERR2 after the error: written by TRANSPORT, else 0 (R29). -/
def Err.err2 : Err → U32
  | .transport xport => xport
  | _ => 0

/-- The errors that write SESSION <- Faulted (43_sequencer.md rules R195, R196). -/
def Err.faultsSession : Err → Bool
  | .transport _ => true
  | .wakeFailure _ _ => true
  | _ => false

/-- The one error that leaves a RESULT (R310, R312). -/
def Err.keepsResult : Err → Bool
  | .domainDecode => true
  | _ => false

end Sys2Proof.Machine
end

