-- ==== Sys2Proof/Machine/Operands.lean ====
section
/-! DEFINITION. The operand checks (30_encoding.md rule R101), the zone selector (45_library.md rule R241), the arguments of
an exchange (44_dispatcher.md rule R220) with the command table that gives them (30_encoding.md rule R92), and the chunk
plan of the hash (45_library.md rule R248). -/

namespace Sys2Proof.Machine

/-- The arguments of an exchange (R220). -/
structure Exchange where
  opc : Byte
  p1 : Byte
  p2 : U16
  pl : Payload
  /-- n, the expected payload length. -/
  expect : Nat
  check : Bool
  exact : Bool
  delay : U32
  deriving DecidableEq, Repr

/-- The absent payload with length 0, `none` (R104, R141). -/
def noPayload : Payload := .absent 0

/-- The command READ of R92. -/
def readExchange (c : Cfg) (zone : Byte) (addr : U16) : Exchange :=
  { opc := c.opRead, p1 := zone, p2 := addr, pl := noPayload, expect := 4, check := true, exact := false, delay := c.tRead }

/-- The command RANDOM of R92. -/
def randomExchange (c : Cfg) : Exchange :=
  { opc := c.opRandom, p1 := 0x00, p2 := 0x0000, pl := noPayload, expect := Config.randomBytes, check := true,
    exact := false, delay := c.tRandom }

/-- The command SHA_START of R92. -/
def shaStartExchange (c : Cfg) : Exchange :=
  { opc := c.opSha, p1 := 0x00, p2 := 0x0000, pl := noPayload, expect := 0, check := true, exact := false, delay := c.tSha }

/-- The command SHA_UPDATE of R92. -/
def shaUpdateExchange (c : Cfg) (chunk : List Byte) : Exchange :=
  { opc := c.opSha, p1 := 0x01, p2 := 0x0000, pl := .present chunk, expect := 0, check := true, exact := false,
    delay := c.tSha }

/-- The command SHA_END of R92: PARAM2 is the number of remaining bytes, and no payload is present when there are none
(R248, 90_conflicts.md C5). -/
def shaEndExchange (c : Cfg) (tail : List Byte) : Exchange :=
  { opc := c.opSha, p1 := 0x02, p2 := BitVec.ofNat 16 tail.length,
    pl := if tail = [] then noPayload else .present tail, expect := 32, check := true, exact := false, delay := c.tSha }

/-- The commands AES_ENC (mode 0x00) and AES_DEC (mode 0x01) of R92 (R94). -/
def aesExchange (c : Cfg) (mode : Byte) (slot : U16) (blk : List Byte) : Exchange :=
  { opc := c.opAes, p1 := mode, p2 := slot, pl := .present blk, expect := Config.aesBlock, check := true, exact := true,
    delay := c.tAes }

/-- The chunk M[64i .. 64i+63] (R248). -/
def shaChunkOf (data : List Byte) (i : Nat) : List Byte := (data.drop (Config.shaChunk * i)).take Config.shaChunk

/-- The bytes M[64q .. L-1] left for the end phase (R248). -/
def shaTail (data : List Byte) : List Byte := data.drop (Config.shaChunk * (data.length / Config.shaChunk))

/-- The chunk plan: start, q updates, end (R248). -/
def hashPlan (c : Cfg) (data : List Byte) : List Exchange :=
  shaStartExchange c ::
    ((List.range (data.length / Config.shaChunk)).map fun i => shaUpdateExchange c (shaChunkOf data i)) ++
      [shaEndExchange c (shaTail data)]

/-- The three word reads of the serial number (R242). -/
def serialPlan (c : Cfg) : List Exchange :=
  [readExchange c c.zoneConfig 0x0000, readExchange c c.zoneConfig 0x0002, readExchange c c.zoneConfig 0x0003]

/-- The reads of words 0 to 31 of the configuration zone, in order (R243). -/
def configPlan (c : Cfg) : List Exchange :=
  (List.range Config.configWords).map fun w => readExchange c c.zoneConfig (BitVec.ofNat 16 w)

/-- The zone code ZSEL selects; 3 is reserved (R95, R241). -/
def zoneCode (c : Cfg) (zsel : BitVec 2) : Option Byte :=
  if zsel = 0 then some c.zoneConfig
  else if zsel = 1 then some c.zoneOtp
  else if zsel = 2 then some c.zoneData
  else none

/-- RANDOM's range check (R246). -/
def countInRange (k : Byte) : Bool := 1 ≤ k.toNat && k.toNat ≤ Config.randomBytes

/-- TRANSACT's range check on N (R222). -/
def expectInRange (n : Byte) : Bool := n.toNat ≤ Config.maxExpected

/-- LockDecode (R244): the RESULT byte of the state, or nothing where it is UNKNOWN. -/
def lockDecode (cfgLock dataLock : Byte) : Option Byte :=
  if cfgLock = 0x00 ∧ dataLock = 0x00 then some 0x00
  else if cfgLock = 0x00 ∧ dataLock = 0x55 then some 0x01
  else if cfgLock = 0x55 ∧ dataLock = 0x55 then some 0x02
  else none

/-- The range reduction of R247 in exact arithmetic: `MIN + (v mod (MAX - MIN + 1))`. -/
def reduceRange (lo hi v : U64) : U64 := BitVec.ofNat 64 (lo.toNat + v.toNat % (hi.toNat - lo.toNat + 1))

end Sys2Proof.Machine
end

