-- ==== Sys2Proof/Machine/Reader.lean ====
section
/-! DEFINITION. The response reader's checks as a function of the bytes received (42_reader.md rules R161-R171). -/

namespace Sys2Proof.Machine

/-- The read length `L = max(4, n + 3)` (R161). -/
def readLength (n : Nat) : Nat := max 4 (n + 3)

/-- What the checks before the checksum make of a response that passes them. -/
inductive Shape where
  /-- A status response with status ST_SUCCESS, in an exchange that expects no payload (R165). -/
  | statusOnly
  /-- A data response with count c (R87). -/
  | data (count : Nat)
  deriving DecidableEq, Repr

/-- Rules R163-R167, in their order: the first check that fails decides. -/
def checkShape (n : Nat) (exact : Bool) (buf : List Byte) : Except Err Shape :=
  let count := buf.getD 0 0
  let c := count.toNat
  if c < 4 then .error (.malformedFrame count)
  else if readLength n < c then .error (.malformedFrame count)
  else if c = 4 then
    if buf.getD 1 0 ≠ Config.stSuccess then .error (.deviceStatus (buf.getD 1 0))
    else if 0 < n then .error .emptySuccess
    else .ok .statusOnly
  else if exact ∧ c ≠ n + 3 then .error (.malformedFrame count)
  else if c - 3 < n then .error (.insufficientData count)
  else .ok (.data c)

/-- The payload the reader copies: buf[1 .. n] (R169). -/
def responsePayload (n : Nat) (buf : List Byte) : List Byte := (buf.drop 1).take n

/-- The response as its count delimits it, buf[0 .. c-1] (R168, R170). -/
def delimited (c : Nat) (buf : List Byte) : List Byte := buf.take c

/-- The wake response is accepted: bytes 0 and 1 alone are checked (R91, R193). -/
def wakeAccepted (c : Cfg) (buf : List Byte) : Bool := buf.getD 0 0 == 4 && buf.getD 1 0 == c.stWake

end Sys2Proof.Machine
end

