-- ==== Sys2Proof/Machine/Ops.lean ====
section
/-! DEFINITION. The operations every instruction is made of: raising an error and the error entry, completion, the
transport port, the settle timer, the framer, the reader and the exchange. -/

namespace Sys2Proof.Machine

/-- What a part of an operation does: go on with a value, or `raise E(info)` (00_scope.md rule R9). -/
inductive Reply (α : Type) where
  | val (a : α) (s : State)
  | raised (e : Err) (s : State)
  deriving DecidableEq, Repr

/-- Go on with f after a part that went on; no statement after a raise executes (R9). -/
def Reply.andThen {α β : Type} (r : Reply α) (f : α → State → Reply β) : Reply β :=
  match r with
  | .val a s => f a s
  | .raised e s => .raised e s

/-! ### Error entry and completion -/

/-- Error entry (60_exceptions.md rule R312): ERR takes the code and its fields, RESULT is emptied unless the error keeps
it, TRANSPORT and WAKE_FAILURE fault the session, the hidden state goes idle, BUSY is cleared. Nothing else is saved. -/
def errorEntry (e : Err) (s : State) : State :=
  { s with
    err0 := e.err0
    err1 := e.err1
    err2 := e.err2
    result := if e.keepsResult then s.result else []
    session := if e.faultsSession then .faulted else s.session
    phase := .idle
    timer := 0
    ctxStep := 0
    acc := []
    busy := false }

/-- Completion with success (60_exceptions.md rule R311), which is the return too: the host port accepts the next
operation (R314). RESULT receives the output (R33). -/
def complete (r : List Byte) (s : State) : State :=
  { s with
    result := r
    err0 := packErr0 0 0 0
    err1 := 0
    err2 := 0
    phase := .idle
    timer := 0
    ctxStep := 0
    acc := []
    busy := false }

/-- How an operation ends: with its output, or through error entry (R300). -/
def Reply.finish : Reply (List Byte) → State
  | .val r s => complete r s
  | .raised e s => errorEntry e s

/-- The state in which an accepted operation runs: BUSY is set (10_state.md rule R25), so PHASE is IDLE no longer (R35; SEND
where no exchange has begun, notes/assumptions/17.md), and CTX starts empty (R40). -/
def accepted (s : State) : State := { s with busy := true, phase := .send, ctxStep := 0, acc := [] }

/-- The host port (10_state.md rule R25, 70_reset_and_hazards.md rule R346): while BUSY an operation is not accepted and
has no effect; else it is accepted and runs to its end (R11, R313). -/
def operate (body : State → Reply (List Byte)) (s : State) : State :=
  if s.busy then s else (body (accepted s)).finish

/-- An argument check: a failed one raises INVALID_ARGUMENT before anything after it (R101, R301). -/
def require (holds : Bool) (body : State → Reply (List Byte)) (s : State) : Reply (List Byte) :=
  if holds then body s else .raised .invalidArgument s

/-- The Awake gate (43_sequencer.md rule R197). -/
def awakeGate (body : State → Reply (List Byte)) (s : State) : Reply (List Byte) :=
  if s.session = .awake then body s else .raised .notAwake s

/-! ### The transport port -/

/-- The class of an outcome (20_memory.md rule R63). -/
inductive XClass where
  | ok
  | tolerated
  | fatal (code : U32)
  deriving DecidableEq, Repr

/-- `class(o)` (R63). -/
def classify (c : Cfg) : XOutcome → XClass
  | .ok => .ok
  | .err code => if code = c.xportIo ∨ code = c.xportNoresp then .tolerated else .fatal code

/-- The outcome of the next transaction: the script's, else a free value (R63; notes/assumptions/2.md). -/
def answerOutcome (s : State) : XOutcome :=
  match s.oracle with
  | [] => Config.freeOutcome s.asked
  | a :: _ => a.outcome

/-- The bytes of the next transaction, exactly len of them (R62): the script's, and a free value wherever it gives none. -/
def answerBytes (s : State) (len : Nat) : List Byte :=
  (List.range len).map fun i =>
    match s.oracle with
    | [] => Config.freeByte s.asked i
    | a :: _ => a.bytes.getD i (Config.freeByte s.asked i)

/-- The oracle has answered one transaction. -/
def answered (s : State) : State := { s with oracle := s.oracle.tail, asked := s.asked + 1 }

/-- Record a port event (R65). -/
def record (e : Event) (s : State) : State := { s with trace := s.trace ++ [e] }

/-- `PHASE <- SEND`, then one BusSend (R61); a FATAL outcome raises TRANSPORT, a TOLERATED one goes on as OK (R63). -/
def send (addr : BusAddr) (bytes : List Byte) (s : State) : Reply Unit :=
  let o := answerOutcome s
  let s := record (.send addr bytes o) (answered { s with phase := .send })
  match classify s.cfg o with
  | .fatal code => .raised (.transport code) s
  | _ => .val () s

/-- `PHASE <- RECV`, then one BusRecv of len bytes (R62); a FATAL outcome raises TRANSPORT, else the bytes stand in RXBUF
(42_reader.md rule R162). -/
def recv (addr : BusAddr) (len : Nat) (s : State) : Reply (List Byte) :=
  let o := answerOutcome s
  let buf := answerBytes s len
  let s := record (.recv addr len o buf) (answered { s with phase := .recv })
  match classify s.cfg o with
  | .fatal code => .raised (.transport code) s
  | _ => .val buf { s with rxBuf := buf }

/-! ### The settle timer -/

/-- Load the settle timer (43_sequencer.md rule R191). -/
def loadTimer (t : U32) (s : State) : State := { s with phase := .settle, timer := t.toNat }

/-- One tick of the settle timer: it counts down and stays at 0 (R191, R36). -/
def tick (s : State) : State := { s with timer := s.timer - 1 }

/-- `Wait(T)` (R64, R191): the timer is loaded and runs out, and the event is recorded. That T ticks of `tick` bring the
loaded timer to 0 is a statement of its own; time itself is not modelled (R191, R352). -/
def wait (t : U32) (s : State) : State := record (.wait t) { loadTimer t s with timer := 0 }

/-! ### Checksum engine, framer, reader -/

/-- Run the checksum engine over s: CRCREG starts at CRC_INIT and ends with the result (40_checksum.md rule R125). -/
def runCrc (bytes : List Byte) (s : State) : State := { s with crcReg := crc16 bytes }

/-- Build (41_framer.md rules R140-R144): the frame, left in TXBUF, or INVALID_ARGUMENT. -/
def build (opc p1 : Byte) (p2 : U16) (pl : Payload) (s : State) : Reply (List Byte) :=
  if payloadAccepted s.cfg.maxCmdSize pl then
    let body := frameBody opc p1 p2 (payloadBytes pl)
    let frame := frameOf opc p1 p2 (payloadBytes pl)
    .val frame { runCrc body s with txBuf := frame }
  else .raised .invalidArgument s

/-- The checksum step of the reader (42_reader.md rule R168), over buf[0 .. c-1]. -/
def checkTrailer (check : Bool) (n : Nat) (resp buf : List Byte) (s : State) : Reply (List Byte) :=
  if check then
    let s := runCrc (covered resp) s
    if trailer resp ≠ s.crcReg then .raised (.integrity (trailer resp) s.crcReg) s
    else .val (responsePayload n buf) s
  else .val (responsePayload n buf) s

/-- Receive (42_reader.md rules R160-R170). -/
def receive (n : Nat) (check exact : Bool) (s : State) : Reply (List Byte) :=
  (recv s.cfg.busAddr (readLength n) s).andThen fun buf s =>
    match checkShape n exact buf with
    | .error e => .raised e s
    | .ok .statusOnly => .val [] s
    | .ok (.data c) => checkTrailer check n (delimited c buf) buf s

/-! ### The exchange -/

/-- The bytes a command send puts on the wire: `CMD_PREFIX ++ frame` (30_encoding.md rule R85). -/
def onWire (c : Cfg) (frame : List Byte) : List Byte := c.cmdPrefix.toList ++ frame

/-- Exchange (44_dispatcher.md rule R221): build, send, settle, receive. -/
def exchange (x : Exchange) (s : State) : Reply (List Byte) :=
  (build x.opc x.p1 x.p2 x.pl s).andThen fun frame s =>
    (send s.cfg.busAddr (onWire s.cfg frame) s).andThen fun _ s =>
      (receive x.expect x.check x.exact (wait x.delay s)).andThen fun p s =>
        .val p { s with ctxStep := s.ctxStep + 1 }

/-- The exchanges of a composite operation, in order, their outputs gathered in ACC (R40, 45_library.md rule R240): the
first that raises ends it. -/
def gather : List Exchange → State → Reply (List Byte)
  | [], s => .val s.acc s
  | x :: xs, s => (exchange x s).andThen fun p s => gather xs { s with acc := s.acc ++ p }

/-- The raw dispatcher (44_dispatcher.md rule R222): the framer's check, the Awake gate, one exchange. -/
def dispatch (x : Exchange) (s : State) : Reply (List Byte) :=
  (build x.opc x.p1 x.p2 x.pl s).andThen fun _ s => awakeGate (exchange x) s

/-- Go on with the output changed by f, the state as it is: the assembly of RESULT. -/
def Reply.output (r : Reply (List Byte)) (f : List Byte → List Byte) : Reply (List Byte) :=
  r.andThen fun p s => .val (f p) s

end Sys2Proof.Machine
end

