-- ==== Sys2Proof/Machine/ChecksumOps.lean ====
section
/-! DEFINITION. CRC_COMPUTE and CRC_VALIDATE (40_checksum.md rules R126, R128). -/

namespace Sys2Proof.Machine

/-- CRC_COMPUTE (R126). -/
def execCrcCompute (data : List Byte) (s : State) : Host.Outcome State Fault Refusal :=
  .next (operate (fun s => .val (le16 (crc16 data)) (runCrc data s)) s)

/-- CRC_VALIDATE (R128). Below 3 bytes Validate computes no checksum (R127). -/
def execCrcValidate (data : List Byte) (s : State) : Host.Outcome State Fault Refusal :=
  .next (operate (fun s =>
    .val [bitByte (validate data)] (if data.length < 3 then s else runCrc (covered data) s)) s)

end Sys2Proof.Machine
end

