-- ==== Sys2Proof/Machine/Dispatcher.lean ====
section
/-! DEFINITION. TRANSACT (44_dispatcher.md rule R222) and the wire commands, each the one exchange its row of 30_encoding.md
rule R92 gives, run by the raw dispatcher (R97, R222; notes/assumptions/6.md). -/

namespace Sys2Proof.Machine

/-- TRANSACT's exchange with the host's arguments (R220, R222). -/
def hostExchange (opc p1 : Byte) (p2 : U16) (pl : Payload) (n : Byte) (chk ex : Bool) (dly : U32) : Exchange :=
  { opc := opc, p1 := p1, p2 := p2, pl := pl, expect := n.toNat, check := chk, exact := ex, delay := dly }

/-- TRANSACT (R222). -/
def execTransact (opc p1 : Byte) (p2 : U16) (pl : Payload) (n : Byte) (chk ex : Bool) (dly : U32) (s : State) :
    Host.Outcome State Fault Refusal :=
  .next (operate (require (expectInRange n) (dispatch (hostExchange opc p1 p2 pl n chk ex dly))) s)

/-- A READ command (R92, R95). -/
def execCmdRead (zone : Byte) (addr : U16) (s : State) : Host.Outcome State Fault Refusal :=
  .next (operate (fun s => dispatch (readExchange s.cfg zone addr) s) s)

/-- A frame with OPCODE = OP_WRITE: the dispatcher carries it and gives it no meaning of its own (R97). -/
def execCmdWrite (p1 : Byte) (p2 : U16) (pl : Payload) (n : Byte) (chk ex : Bool) (dly : U32) (s : State) :
    Host.Outcome State Fault Refusal :=
  .next (operate (require (expectInRange n) fun s => dispatch (hostExchange s.cfg.opWrite p1 p2 pl n chk ex dly) s) s)

/-- The RANDOM command (R92). -/
def execCmdRandom (s : State) : Host.Outcome State Fault Refusal :=
  .next (operate (fun s => dispatch (randomExchange s.cfg) s) s)

/-- The SHA_START command (R92, R93). -/
def execCmdShaStart (s : State) : Host.Outcome State Fault Refusal :=
  .next (operate (fun s => dispatch (shaStartExchange s.cfg) s) s)

/-- A SHA_UPDATE command (R92, R93). -/
def execCmdShaUpdate (chunk : List Byte) (s : State) : Host.Outcome State Fault Refusal :=
  .next (operate (fun s => dispatch (shaUpdateExchange s.cfg chunk) s) s)

/-- A SHA_END command (R92, R93). -/
def execCmdShaEnd (tail : List Byte) (s : State) : Host.Outcome State Fault Refusal :=
  .next (operate (fun s => dispatch (shaEndExchange s.cfg tail) s) s)

/-- An AES_ENC command (R92, R94). -/
def execCmdAesEnc (slot : U16) (blk : List Byte) (s : State) : Host.Outcome State Fault Refusal :=
  .next (operate (fun s => dispatch (aesExchange s.cfg 0x00 slot blk) s) s)

/-- An AES_DEC command (R92, R94). -/
def execCmdAesDec (slot : U16) (blk : List Byte) (s : State) : Host.Outcome State Fault Refusal :=
  .next (operate (fun s => dispatch (aesExchange s.cfg 0x01 slot blk) s) s)

end Sys2Proof.Machine
end

