-- ==== Sys2Proof/Machine/FramerOps.lean ====
section
/-! DEFINITION. FRAME_BUILD (41_framer.md rule R145). -/

namespace Sys2Proof.Machine

/-- FRAME_BUILD (R145). -/
def execFrameBuild (opc p1 : Byte) (p2 : U16) (pl : Payload) (s : State) : Host.Outcome State Fault Refusal :=
  .next (operate (build opc p1 p2 pl) s)

end Sys2Proof.Machine
end

