-- ==== Sys2Proof/Machine/Library.lean ====
section
/-! DEFINITION. The command library (45_library.md rules R240-R252): argument checks, the Awake gate, the exchanges in
order, the assembly of RESULT. -/

namespace Sys2Proof.Machine

/-- READ_WORD (R241). -/
def execReadWord (zsel : BitVec 2) (addr : U16) (s : State) : Host.Outcome State Fault Refusal :=
  .next (operate (fun s =>
    match zoneCode s.cfg zsel with
    | none => .raised .invalidArgument s
    | some zone => awakeGate (exchange (readExchange s.cfg zone addr)) s) s)

/-- READ_SERIAL (R242): the first two words and the first byte of the third. -/
def execReadSerial (s : State) : Host.Outcome State Fault Refusal :=
  .next (operate (awakeGate fun s => (gather (serialPlan s.cfg) s).output (List.take 9)) s)

/-- READ_CONFIG_ZONE (R243). -/
def execReadConfigZone (s : State) : Host.Outcome State Fault Refusal :=
  .next (operate (awakeGate fun s => gather (configPlan s.cfg) s) s)

/-- The decode of READ_LOCK_STATUS (R245): an UNKNOWN pair stands in RESULT when DOMAIN_DECODE is raised. -/
def decodeLock (word : List Byte) (s : State) : Reply (List Byte) :=
  let cfgLock := word.getD s.cfg.lockIdxCfg.toNat 0
  let dataLock := word.getD s.cfg.lockIdxData.toNat 0
  match lockDecode cfgLock dataLock with
  | some state => .val [state] s
  | none => .raised .domainDecode { s with result := [cfgLock, dataLock] }

/-- READ_LOCK_STATUS (R245). -/
def execReadLockStatus (s : State) : Host.Outcome State Fault Refusal :=
  .next (operate (awakeGate fun s =>
    (exchange (readExchange s.cfg s.cfg.zoneConfig s.cfg.lockWordAddr) s).andThen decodeLock) s)

/-- RANDOM (R246): the whole response is read whatever K is (90_conflicts.md C6). -/
def execRandom (k : Byte) (s : State) : Host.Outcome State Fault Refusal :=
  .next (operate (require (countInRange k) (awakeGate fun s =>
    (exchange (randomExchange s.cfg) s).output (List.take k.toNat))) s)

/-- RANDOM_RANGE (R247). -/
def execRandomRange (lo hi : U64) (s : State) : Host.Outcome State Fault Refusal :=
  .next (operate (require (lo.toNat ≤ hi.toNat) (awakeGate fun s =>
    (exchange (randomExchange s.cfg) s).output fun r => tobe64 (reduceRange lo hi (be64 (r.take 8))))) s)

/-- HASH (R249): the chunk plan of R248; the start and update phases return no payload, so ACC ends with the digest. -/
def execHash (data : List Byte) (s : State) : Host.Outcome State Fault Refusal :=
  .next (operate (awakeGate fun s => gather (hashPlan s.cfg data) s) s)

/-- AES_ENCRYPT (R251). -/
def execAesEncrypt (slot : U16) (blk : List Byte) (s : State) : Host.Outcome State Fault Refusal :=
  .next (operate (require (blk.length == Config.aesBlock) (awakeGate fun s =>
    exchange (aesExchange s.cfg 0x00 slot blk) s)) s)

/-- AES_DECRYPT (R252). -/
def execAesDecrypt (slot : U16) (blk : List Byte) (s : State) : Host.Outcome State Fault Refusal :=
  .next (operate (require (blk.length == Config.aesBlock) (awakeGate fun s =>
    exchange (aesExchange s.cfg 0x01 slot blk) s)) s)

end Sys2Proof.Machine
end

