-- ==== Sys2Proof/Machine/Sequencer.lean ====
section
/-! DEFINITION. WAKE and SLEEP (43_sequencer.md rules R192-R194), and the wire tokens they send (30_encoding.md rules R89, R90). -/

namespace Sys2Proof.Machine

/-- Send the wake token to WAKE_ADDR, with no prefix, count or checksum (R89). -/
def sendWakeToken (s : State) : Reply Unit := send s.cfg.wakeAddr [Config.wakeToken] s

/-- Send the sleep token to BUS_ADDR, with no prefix, count or checksum (R90). -/
def sendSleepToken (s : State) : Reply Unit := send s.cfg.busAddr [s.cfg.sleepToken] s

/-- The check of the wake response (R192, R193): it does not use Receive. -/
def acceptWake (buf : List Byte) (s : State) : Reply (List Byte) :=
  if wakeAccepted s.cfg buf then .val [] { s with session := .awake }
  else .raised (.wakeFailure (buf.getD 0 0) (buf.getD 1 0)) s

/-- WAKE (R192), accepted in every session state. -/
def execWake (s : State) : Host.Outcome State Fault Refusal :=
  .next (operate (fun s =>
    (sendWakeToken s).andThen fun _ s =>
      (recv s.cfg.busAddr 4 (wait s.cfg.tWake s)).andThen acceptWake) s)

/-- SLEEP (R194), accepted in every session state. -/
def execSleep (s : State) : Host.Outcome State Fault Refusal :=
  .next (operate (fun s =>
    (sendSleepToken s).andThen fun _ s => .val [] { wait s.cfg.tSleep s with session := .asleep }) s)

/-- The wake token alone (R89): the send of WAKE, a FATAL outcome being the TRANSPORT error of R192 (notes/assumptions/7.md). -/
def execTokenWake (s : State) : Host.Outcome State Fault Refusal :=
  .next (operate (fun s => (sendWakeToken s).andThen fun _ s => .val [] s) s)

/-- The sleep token alone (R90): the send of SLEEP, a FATAL outcome being the TRANSPORT error of R194 (notes/assumptions/7.md). -/
def execTokenSleep (s : State) : Host.Outcome State Fault Refusal :=
  .next (operate (fun s => (sendSleepToken s).andThen fun _ s => .val [] s) s)

end Sys2Proof.Machine
end

