-- ==== Sys2Proof/Machine/Dispatch.lean ====
section
/-! DEFINITION. One arm per instruction, each a direct call of its meaning. -/

namespace Sys2Proof.Machine

-- The effect of one instruction on the block (60_exceptions.md rule R313: an operation is a function of the state, the
-- descriptor and the oracle's answers).
def exec (i : Instr) (s : State) : Host.Outcome State Fault Refusal :=
  match i with
  | .crcCompute data => Sys2Proof.Machine.execCrcCompute data s
  | .crcValidate data => Sys2Proof.Machine.execCrcValidate data s
  | .frameBuild opc p1 p2 pl => Sys2Proof.Machine.execFrameBuild opc p1 p2 pl s
  | .wake => Sys2Proof.Machine.execWake s
  | .sleep => Sys2Proof.Machine.execSleep s
  | .transact opc p1 p2 pl n chk ex dly => Sys2Proof.Machine.execTransact opc p1 p2 pl n chk ex dly s
  | .readWord zsel addr => Sys2Proof.Machine.execReadWord zsel addr s
  | .readSerial => Sys2Proof.Machine.execReadSerial s
  | .readConfigZone => Sys2Proof.Machine.execReadConfigZone s
  | .readLockStatus => Sys2Proof.Machine.execReadLockStatus s
  | .random k => Sys2Proof.Machine.execRandom k s
  | .randomRange lo hi => Sys2Proof.Machine.execRandomRange lo hi s
  | .hash data => Sys2Proof.Machine.execHash data s
  | .aesEncrypt slot blk => Sys2Proof.Machine.execAesEncrypt slot blk s
  | .aesDecrypt slot blk => Sys2Proof.Machine.execAesDecrypt slot blk s
  | .cmdRead zone addr => Sys2Proof.Machine.execCmdRead zone addr s
  | .cmdWrite p1 p2 pl n chk ex dly => Sys2Proof.Machine.execCmdWrite p1 p2 pl n chk ex dly s
  | .cmdRandom => Sys2Proof.Machine.execCmdRandom s
  | .cmdShaStart => Sys2Proof.Machine.execCmdShaStart s
  | .cmdShaUpdate chunk => Sys2Proof.Machine.execCmdShaUpdate chunk s
  | .cmdShaEnd tail => Sys2Proof.Machine.execCmdShaEnd tail s
  | .cmdAesEnc slot blk => Sys2Proof.Machine.execCmdAesEnc slot blk s
  | .cmdAesDec slot blk => Sys2Proof.Machine.execCmdAesDec slot blk s
  | .tokenWake => Sys2Proof.Machine.execTokenWake s
  | .tokenSleep => Sys2Proof.Machine.execTokenSleep s

end Sys2Proof.Machine
end

