-- ==== Sys2Proof/Machine/HostPort.lean ====
section
/-! DEFINITION. The host port: the request that is next, and a descriptor whose HOP is unassigned (30_encoding.md rule R100). -/

namespace Sys2Proof.Machine

/-- An unassigned HOP completes at once with INVALID_ARGUMENT, no bus event and no change to SESSION (R100). -/
def refuseUnassigned (s : State) : Host.Outcome State Fault Refusal :=
  .next (operate (fun s => .raised .invalidArgument s) s)

/-- What the next request is, in a block whose requests are r and then more (R22, R25). -/
def fetched (s : State) (r : Request) : Decoded := decode s.cfg r

/-- The state in which the next request has been handed to the block. -/
def taken (s : State) : State := { s with requests := s.requests.tail }

/-- s with the request that an opcode-table word stands for handed over next (notes/assumptions/8.md). It is no operation of
the block: the wire rows of the table are written with CFG_REF, so a wire word is placed in the same block instantiated
with CFG_REF (R343 step 1), which reading it needs. -/
def placeTableWord (s : State) (nbits w : Nat) : State :=
  match tableRequest nbits w with
  | .descriptor bytes => { s with requests := .descriptor bytes :: s.requests }
  | .wire bytes => { s.toBlock with requests := .wire bytes :: s.requests }.under Config.cfgRef

end Sys2Proof.Machine
end

