-- ==== Sys2Proof/Machine/Step.lean ====
section
/-! DEFINITION. One step: the next request is handed to the block, which runs it to its end (20_memory.md rule R66). -/

namespace Sys2Proof.Machine

/-- One step. With nothing handed to it the block stays idle (70_reset_and_hazards.md rule R342; notes/assumptions/13.md). -/
def step (s : State) : Host.Outcome State Fault Refusal :=
  match s.requests with
  | [] => .next s
  | r :: _ =>
    match fetched s r with
    | .instr i => exec i (taken s)
    | .unassigned _ => refuseUnassigned (taken s)
    | .rejected why => .refused (.notAnInstruction why)

/-- s with the instruction of an opcode-table word where step takes its next request (notes/assumptions/8.md). -/
def State.withFetchWord (s : State) (nbits w : Nat) : State := placeTableWord s nbits w

end Sys2Proof.Machine
end

