-- ==== Sys2Proof/Machine/Assembly.lean ====
section
/-! DEFINITION. The assembly text of host programs (30_encoding.md rules R104, R105): one line is one host operation. -/

namespace Sys2Proof.Machine

/-- The tokens of a line. -/
inductive Token where
  | word (letters : List Char)
  | comma
  | openBracket
  | closeBracket
  | openParen
  | closeParen
  deriving DecidableEq, Repr

/-- The characters that are tokens of their own. -/
def punctuation (c : Char) : Option Token :=
  if c = ',' then some .comma
  else if c = '[' then some .openBracket
  else if c = ']' then some .closeBracket
  else if c = '(' then some .openParen
  else if c = ')' then some .closeParen
  else none

/-- The word gathered so far, its letters last first; no token where there is none. -/
def endWord : List Char → List Token
  | [] => []
  | c :: s => [.word (c :: s).reverse]

/-- The tokens of a line up to its comment; `word` is what has been read of a word, last letter first. DESIGN CHOICE: R104
does not say how a line's characters are split, nor what a comment holds (notes/assumptions/22.md). -/
def tokens (word : List Char) : List Char → List Token
  | [] => endWord word
  | c :: s =>
    if c = ';' then endWord word
    else if c = ' ' then endWord word ++ tokens [] s
    else match punctuation c with
      | some t => endWord word ++ t :: tokens [] s
      | none => tokens (c :: word) s

/-- `digit` of R104. -/
def decimalDigit (c : Char) : Option Nat :=
  if 48 ≤ c.toNat ∧ c.toNat ≤ 57 then some (c.toNat - 48) else none

/-- `hexdigit` of R104, in either case. -/
def hexDigit (c : Char) : Option Nat :=
  if 65 ≤ c.toNat ∧ c.toNat ≤ 70 then some (c.toNat - 55)
  else if 97 ≤ c.toNat ∧ c.toNat ≤ 102 then some (c.toNat - 87)
  else decimalDigit c

/-- The digits of a number, after those that make `value`. -/
def digits (base : Nat) (digit : Char → Option Nat) (value : Nat) : List Char → Option Nat
  | [] => some value
  | c :: s => (digit c).bind fun d => digits base digit (value * base + d) s

/-- `num` of R104. -/
def numeral : List Char → Option Nat
  | '0' :: 'x' :: c :: s => digits 16 hexDigit 0 (c :: s)
  | c :: s => digits 10 decimalDigit 0 (c :: s)
  | [] => none

/-- The bytes of a word of hexadecimal digits, two a byte. -/
def hexBytes : List Char → Option (List Byte)
  | [] => some []
  | [_] => none
  | a :: b :: s => do
    let high ← hexDigit a
    let low ← hexDigit b
    let rest ← hexBytes s
    some (BitVec.ofNat 8 (high * 16 + low) :: rest)

/-- A number that fits its field (R98, R104). -/
def readField (n : Nat) : List Token → Option (BitVec n × List Token)
  | .word w :: s => (numeral w).bind fun v => if v < 2 ^ n then some (BitVec.ofNat n v, s) else none
  | _ => none

/-- `bit` of R104. -/
def readBit : List Token → Option (Bool × List Token)
  | .word ['0'] :: s => some (false, s)
  | .word ['1'] :: s => some (true, s)
  | _ => none

/-- `zone` of R104: config, otp and data are ZSEL 0, 1 and 2. -/
def readZone : List Token → Option (BitVec 2 × List Token)
  | .word ['c', 'o', 'n', 'f', 'i', 'g'] :: s => some (0, s)
  | .word ['o', 't', 'p'] :: s => some (1, s)
  | .word ['d', 'a', 't', 'a'] :: s => some (2, s)
  | _ => none

/-- The separator of two operands. -/
def readComma : List Token → Option (List Token)
  | .comma :: s => some s
  | _ => none

/-- The bytes up to the closing bracket. -/
def readBytesTail : List Token → Option (List Byte × List Token)
  | .closeBracket :: s => some ([], s)
  | .word w :: s => do
    let b ← hexBytes w
    let rest ← readBytesTail s
    some (b ++ rest.1, rest.2)
  | _ => none

/-- `bytes` of R104: their number is LEN or BLEN. -/
def readBytes : List Token → Option (List Byte × List Token)
  | .openBracket :: s => readBytesTail s
  | _ => none

/-- `payload` of R104: `none` is absent with PLEN 0, `none(n)` absent with PLEN n, bytes are present. -/
def readPayload : List Token → Option (Payload × List Token)
  | .word ['n', 'o', 'n', 'e'] :: .openParen :: s =>
    (readField 8 s).bind fun x => match x.2 with
      | .closeParen :: rest => some (.absent x.1, rest)
      | _ => none
  | .word ['n', 'o', 'n', 'e'] :: s => some (.absent 0, s)
  | s => (readBytes s).map fun x => (.present x.1, x.2)

/-- `num "," num "," num "," payload`: OPC, P1, P2, PL. -/
def readFrameOperands (s : List Token) : Option ((Byte × Byte × U16 × Payload) × List Token) := do
  let opc ← readField 8 s
  let s ← readComma opc.2
  let p1 ← readField 8 s
  let s ← readComma p1.2
  let p2 ← readField 16 s
  let s ← readComma p2.2
  let pl ← readPayload s
  some ((opc.1, p1.1, p2.1, pl.1), pl.2)

/-- `num "," bit "," bit "," num`: N, CHK, EX, DLY. -/
def readReceiveOperands (s : List Token) : Option ((Byte × Bool × Bool × U32) × List Token) := do
  let n ← readField 8 s
  let s ← readComma n.2
  let chk ← readBit s
  let s ← readComma chk.2
  let ex ← readBit s
  let s ← readComma ex.2
  let dly ← readField 32 s
  some ((n.1, chk.1, ex.1, dly.1), dly.2)

/-- `num "," bytes`: SLOT, BLK. -/
def readSlotAndBlock (s : List Token) : Option ((U16 × List Byte) × List Token) := do
  let slot ← readField 16 s
  let s ← readComma slot.2
  let blk ← readBytes s
  some ((slot.1, blk.1), blk.2)

/-- How the operands after a mnemonic are read. -/
structure OperandReader where
  mnemonic : String
  operands : List Token → Option (Instr × List Token)

/-- `op` of R104: the mnemonics, each with its operands in the order of R99. -/
def operandReaders : List OperandReader :=
  [⟨"CRC_COMPUTE", fun s => (readBytes s).map fun x => (.crcCompute x.1, x.2)⟩,
   ⟨"CRC_VALIDATE", fun s => (readBytes s).map fun x => (.crcValidate x.1, x.2)⟩,
   ⟨"FRAME_BUILD", fun s => (readFrameOperands s).map fun f => (.frameBuild f.1.1 f.1.2.1 f.1.2.2.1 f.1.2.2.2, f.2)⟩,
   ⟨"WAKE", fun s => some (.wake, s)⟩,
   ⟨"SLEEP", fun s => some (.sleep, s)⟩,
   ⟨"TRANSACT", fun s => (readFrameOperands s).bind fun f => (readComma f.2).bind fun t =>
     (readReceiveOperands t).map fun r =>
       (.transact f.1.1 f.1.2.1 f.1.2.2.1 f.1.2.2.2 r.1.1 r.1.2.1 r.1.2.2.1 r.1.2.2.2, r.2)⟩,
   ⟨"READ_WORD", fun s => (readZone s).bind fun z => (readComma z.2).bind fun t =>
     (readField 16 t).map fun a => (.readWord z.1 a.1, a.2)⟩,
   ⟨"READ_SERIAL", fun s => some (.readSerial, s)⟩,
   ⟨"READ_CONFIG_ZONE", fun s => some (.readConfigZone, s)⟩,
   ⟨"READ_LOCK_STATUS", fun s => some (.readLockStatus, s)⟩,
   ⟨"RANDOM", fun s => (readField 8 s).map fun k => (.random k.1, k.2)⟩,
   ⟨"RANDOM_RANGE", fun s => (readField 64 s).bind fun lo => (readComma lo.2).bind fun t =>
     (readField 64 t).map fun hi => (.randomRange lo.1 hi.1, hi.2)⟩,
   ⟨"HASH", fun s => (readBytes s).map fun x => (.hash x.1, x.2)⟩,
   ⟨"AES_ENCRYPT", fun s => (readSlotAndBlock s).map fun x => (.aesEncrypt x.1.1 x.1.2, x.2)⟩,
   ⟨"AES_DECRYPT", fun s => (readSlotAndBlock s).map fun x => (.aesDecrypt x.1.1 x.1.2, x.2)⟩]

/-- Read an operation: the mnemonic and the tokens after it. -/
def readOperation (mnemonic : List Char) (s : List Token) : Option (Instr × List Token) :=
  (operandReaders.find? fun row => row.mnemonic.toList == mnemonic).bind fun row => row.operands s

/-- A line of a host program: exactly one operation, each length within its field (R102, R105). -/
def assembleLine (line : List Char) : Option Instr :=
  match tokens [] line with
  | .word mnemonic :: s =>
    match readOperation mnemonic s with
    | some (i, []) => if wellFormed i then some i else none
    | _ => none
  | _ => none

/-- The lines of a text, each without its newline. DESIGN CHOICE: R104 does not define `newline`; it is the line feed alone,
and the end of the text ends a last line that has none (notes/assumptions/22.md). -/
def linesOf : List Char → List (List Char)
  | [] => []
  | c :: s =>
    if c = '\n' then [] :: linesOf s
    else match linesOf s with
      | [] => [[c]]
      | line :: more => (c :: line) :: more

/-- A host program, line by line (R104). -/
def assemble (text : List Char) : Option (List Instr) := (linesOf text).mapM assembleLine

end Sys2Proof.Machine
end

