-- ==== Sys2Proof/Machine/Parameter.lean ====
section
/-! DEFINITION. The machine with CFG as its parameter (10_state.md rule R34): for every CFG one machine, whose state is the
block alone. Its step is step under that CFG. -/

namespace Sys2Proof.Machine

/-- What an outcome leaves of the block. -/
def blockOf : Host.Outcome State Fault Refusal → Host.Outcome Block Fault Refusal
  | .next t => .next t.toBlock
  | .fault f => .fault f
  | .refused r => .refused r

/-- An outcome of the block, under c. -/
def outcomeUnder (c : Cfg) : Host.Outcome Block Fault Refusal → Host.Outcome State Fault Refusal
  | .next b => .next (b.under c)
  | .fault f => .fault f
  | .refused r => .refused r

/-- The machine with parameter c (R34): CFG is no part of its state, and after reset it is the same block whatever c is. -/
def machine (c : Cfg) : Host.Core where
  State := Block
  Fault := Fault
  Refusal := Refusal
  step b := blockOf (step (b.under c))
  reset := Block.reset

end Sys2Proof.Machine
end

