-- ==== Sys2Proof/Safety.lean ====
section
/-! DEFINITION. The terms the claims are stated in: what the oracle answers, what one exchange leaves, what a plan of
exchanges leaves, the classes of operations, and the invariant of a run. -/

namespace Sys2Proof.Machine

/-! ### What the oracle answers -/

/-- s with the oracle k transactions on. -/
def later (k : Nat) (s : State) : State := { s with oracle := s.oracle.drop k, asked := s.asked + k }

/-- The outcome of the k-th transaction from s on. -/
def outcomeAt (s : State) (k : Nat) : XOutcome := answerOutcome (later k s)

/-- The bytes of the k-th transaction from s on, if it is a receive of len bytes. -/
def bytesAt (s : State) (k len : Nat) : List Byte := answerBytes (later k s) len

/-- The outcome is OK or TOLERATED: the block goes on (R63). -/
abbrev GoesOn (c : Cfg) (o : XOutcome) : Prop := o = .ok ∨ o = .err c.xportIo ∨ o = .err c.xportNoresp

/-- The outcome is FATAL, with this transport code (R63). -/
abbrev FatalWith (c : Cfg) (o : XOutcome) (code : U32) : Prop :=
  o = .err code ∧ code ≠ c.xportIo ∧ code ≠ c.xportNoresp

/-! ### What the reader must answer -/

/-- The table of R171, rows 2 to 10, on a response buffer of `max 4 (n + 3)` bytes. -/
def verdict (n : Nat) (check exact : Bool) (buf : List Byte) : Except Err (List Byte) :=
  let count := buf.getD 0 0
  let status := buf.getD 1 0
  let c := count.toNat
  let rx := unle16 ((buf.take c).drop (c - 2))
  let computed := crc16 (buf.take (c - 2))
  if c < 4 then .error (.malformedFrame count)
  else if c > max 4 (n + 3) then .error (.malformedFrame count)
  else if c = 4 ∧ status ≠ 0x00 then .error (.deviceStatus status)
  else if c = 4 ∧ status = 0x00 ∧ n > 0 then .error .emptySuccess
  else if c = 4 ∧ status = 0x00 ∧ n = 0 then .ok []
  else if c > 4 ∧ exact = true ∧ c ≠ n + 3 then .error (.malformedFrame count)
  else if c > 4 ∧ c - 3 < n then .error (.insufficientData count)
  else if c > 4 ∧ check = true ∧ rx ≠ computed then .error (.integrity rx computed)
  else .ok ((buf.drop 1).take n)

/-- The checksum step of R168 is reached: every check before it passes, and it is asked for. -/
def checksumReached (n : Nat) (check exact : Bool) (buf : List Byte) : Bool :=
  check && (4 < (buf.getD 0 0).toNat) && (match verdict n false exact buf with | .ok _ => true | .error _ => false)

/-- The intact data response that carries the payload p (R87). -/
def intact (p : List Byte) : List Byte := withTrailer (BitVec.ofNat 8 (p.length + 3) :: p)

/-! ### What one exchange leaves -/

/-- The frame of an exchange (R80-R83). -/
def exchangeFrame (x : Exchange) : List Byte := frameOf x.opc x.p1 x.p2 (payloadBytes x.pl)

/-- The response buffer of an exchange begun in s: the answer of its second transaction (R161). -/
def exchangeBytes (x : Exchange) (s : State) : List Byte := bytesAt s 1 (max 4 (x.expect + 3))

/-- The SEND event of an exchange begun in s (R61, R85). -/
def sendEvent (x : Exchange) (s : State) : Event :=
  .send s.cfg.busAddr (s.cfg.cmdPrefix.toList ++ exchangeFrame x) (outcomeAt s 0)

/-- The RECV event of an exchange begun in s (R62). -/
def recvEvent (x : Exchange) (s : State) : Event :=
  .recv s.cfg.busAddr (max 4 (x.expect + 3)) (outcomeAt s 1) (exchangeBytes x s)

/-- What an exchange ended by a FATAL send leaves: the frame built and one event. -/
def sentOnly (x : Exchange) (s : State) : State :=
  { later 1 s with
    txBuf := exchangeFrame x
    crcReg := crc16 (frameBody x.opc x.p1 x.p2 (payloadBytes x.pl))
    trace := s.trace ++ [sendEvent x s] }

/-- What an exchange ended by a FATAL receive leaves: its three events, the bytes not parsed. -/
def unparsed (x : Exchange) (s : State) : State :=
  { later 2 s with
    txBuf := exchangeFrame x
    crcReg := crc16 (frameBody x.opc x.p1 x.p2 (payloadBytes x.pl))
    trace := s.trace ++ [sendEvent x s, .wait x.delay, recvEvent x s] }

/-- What an exchange whose response is parsed leaves: its three events, the response in RXBUF, and in CRCREG the last
checksum computed. -/
def exchanged (x : Exchange) (s : State) : State :=
  let buf := exchangeBytes x s
  { unparsed x s with
    rxBuf := buf
    crcReg := if checksumReached x.expect x.check x.exact buf then crc16 (buf.take ((buf.getD 0 0).toNat - 2))
      else crc16 (frameBody x.opc x.p1 x.p2 (payloadBytes x.pl)) }

/-- What the exchanges of a plan, each parsed, leave. -/
def exchangedAll (xs : List Exchange) (s : State) : State := xs.foldl (fun s x => exchanged x s) s

/-- The end of an operation whose exchanges are xs, begun in s with the outputs gathered so far: the first exchange that
fails ends it with its error (R240 d), and otherwise `done` is applied to the gathered outputs. -/
def afterPlan (done : List Byte → State → State) : List Exchange → List Byte → State → State
  | [], gathered, s => done gathered s
  | x :: xs, gathered, s =>
    match classify s.cfg (outcomeAt s 0) with
    | .fatal code => errorEntry (.transport code) (sentOnly x s)
    | _ =>
      match classify s.cfg (outcomeAt s 1) with
      | .fatal code => errorEntry (.transport code) (unparsed x s)
      | _ =>
        match verdict x.expect x.check x.exact (exchangeBytes x s) with
        | .error e => errorEntry e (exchanged x s)
        | .ok p => afterPlan done xs (gathered ++ p) (exchanged x s)

/-- The oracle answers every exchange of the plan with a response the reader accepts, the payloads being ps. -/
def Answers (s : State) : List Exchange → List (List Byte) → Prop
  | [], [] => True
  | x :: xs, p :: ps =>
    GoesOn s.cfg (outcomeAt s 0) ∧ GoesOn s.cfg (outcomeAt s 1) ∧
      verdict x.expect x.check x.exact (exchangeBytes x s) = .ok p ∧ Answers (exchanged x s) xs ps
  | _, _ => False

/-! ### Classes of operations -/

/-- What an instruction is: a host operation of each component (R3, R99), a wire command (R92, R97) or a token (R89, R90). -/
inductive Kind where
  | checksum
  | framer
  | wake
  | sleep
  | transact
  | library
  | wire
  | token
  deriving DecidableEq, Repr

/-- The kind of an instruction. -/
def kindOf : Instr → Kind
  | .crcCompute _ => .checksum
  | .crcValidate _ => .checksum
  | .frameBuild _ _ _ _ => .framer
  | .wake => .wake
  | .sleep => .sleep
  | .transact _ _ _ _ _ _ _ _ => .transact
  | .readWord _ _ => .library
  | .readSerial => .library
  | .readConfigZone => .library
  | .readLockStatus => .library
  | .random _ => .library
  | .randomRange _ _ => .library
  | .hash _ => .library
  | .aesEncrypt _ _ => .library
  | .aesDecrypt _ _ => .library
  | .cmdRead _ _ => .wire
  | .cmdWrite _ _ _ _ _ _ _ => .wire
  | .cmdRandom => .wire
  | .cmdShaStart => .wire
  | .cmdShaUpdate _ => .wire
  | .cmdShaEnd _ => .wire
  | .cmdAesEnc _ _ => .wire
  | .cmdAesDec _ _ => .wire
  | .tokenWake => .token
  | .tokenSleep => .token

/-- The fifteen host operations of R99. -/
def isHostOp (i : Instr) : Bool := kindOf i != .wire && kindOf i != .token

/-- The command operations of R197: TRANSACT and the nine library operations. -/
def isCommand (i : Instr) : Bool := kindOf i == .transact || kindOf i == .library

/-- The operations that make no bus event (R126, R128, R145). -/
def isLocal (i : Instr) : Bool := kindOf i == .checksum || kindOf i == .framer

/-- The exchange of a wire command: its row of R92, and for CMD_WRITE the dispatcher's arguments (R97, R222). -/
def wireExchange (c : Cfg) : Instr → Option Exchange
  | .cmdRead zone addr => some (readExchange c zone addr)
  | .cmdWrite p1 p2 pl n chk ex dly =>
    some { opc := c.opWrite, p1 := p1, p2 := p2, pl := pl, expect := n.toNat, check := chk, exact := ex, delay := dly }
  | .cmdRandom => some (randomExchange c)
  | .cmdShaStart => some (shaStartExchange c)
  | .cmdShaUpdate chunk => some (shaUpdateExchange c chunk)
  | .cmdShaEnd tail => some (shaEndExchange c tail)
  | .cmdAesEnc slot blk => some (aesExchange c 0x00 slot blk)
  | .cmdAesDec slot blk => some (aesExchange c 0x01 slot blk)
  | .crcCompute _ => none
  | .crcValidate _ => none
  | .frameBuild _ _ _ _ => none
  | .wake => none
  | .sleep => none
  | .transact _ _ _ _ _ _ _ _ => none
  | .readWord _ _ => none
  | .readSerial => none
  | .readConfigZone => none
  | .readLockStatus => none
  | .random _ => none
  | .randomRange _ _ => none
  | .hash _ => none
  | .aesEncrypt _ _ => none
  | .aesDecrypt _ _ => none
  | .tokenWake => none
  | .tokenSleep => none

/-- The exchanges a command makes where none of them fails (R222, R240-R252, and for a wire command its own, R92). READ_WORD
with a zone selector that names no zone makes none. -/
def planOf (c : Cfg) : Instr → List Exchange
  | .transact opc p1 p2 pl n chk ex dly =>
    [{ opc := opc, p1 := p1, p2 := p2, pl := pl, expect := n.toNat, check := chk, exact := ex, delay := dly }]
  | .readWord zsel addr => (zoneCode c zsel).toList.map fun zone => readExchange c zone addr
  | .readSerial => serialPlan c
  | .readConfigZone => configPlan c
  | .readLockStatus => [readExchange c c.zoneConfig c.lockWordAddr]
  | .random _ => [randomExchange c]
  | .randomRange _ _ => [randomExchange c]
  | .hash data => hashPlan c data
  | .aesEncrypt slot blk => [aesExchange c 0x00 slot blk]
  | .aesDecrypt slot blk => [aesExchange c 0x01 slot blk]
  | .cmdRead zone addr => (wireExchange c (.cmdRead zone addr)).toList
  | .cmdWrite p1 p2 pl n chk ex dly => (wireExchange c (.cmdWrite p1 p2 pl n chk ex dly)).toList
  | .cmdRandom => (wireExchange c .cmdRandom).toList
  | .cmdShaStart => (wireExchange c .cmdShaStart).toList
  | .cmdShaUpdate chunk => (wireExchange c (.cmdShaUpdate chunk)).toList
  | .cmdShaEnd tail => (wireExchange c (.cmdShaEnd tail)).toList
  | .cmdAesEnc slot blk => (wireExchange c (.cmdAesEnc slot blk)).toList
  | .cmdAesDec slot blk => (wireExchange c (.cmdAesDec slot blk)).toList
  | .crcCompute _ => []
  | .crcValidate _ => []
  | .frameBuild _ _ _ _ => []
  | .wake => []
  | .sleep => []
  | .tokenWake => []
  | .tokenSleep => []

/-- How many exchanges a command makes at most: three for READ_SERIAL (R242), 32 for READ_CONFIG_ZONE (R243), the q + 2
of the chunk plan for HASH (R248), one for every other command (R222, R223, R241, R245-R247, R251, R252). -/
def exchangeBound : Instr → Nat
  | .transact _ _ _ _ _ _ _ _ => 1
  | .readWord _ _ => 1
  | .readSerial => 3
  | .readConfigZone => 32
  | .readLockStatus => 1
  | .random _ => 1
  | .randomRange _ _ => 1
  | .hash data => data.length / 64 + 2
  | .aesEncrypt _ _ => 1
  | .aesDecrypt _ _ => 1
  | .cmdRead _ _ => 1
  | .cmdWrite _ _ _ _ _ _ _ => 1
  | .cmdRandom => 1
  | .cmdShaStart => 1
  | .cmdShaUpdate _ => 1
  | .cmdShaEnd _ => 1
  | .cmdAesEnc _ _ => 1
  | .cmdAesDec _ _ => 1
  | .crcCompute _ => 0
  | .crcValidate _ => 0
  | .frameBuild _ _ _ _ => 0
  | .wake => 0
  | .sleep => 0
  | .tokenWake => 0
  | .tokenSleep => 0

/-- A payload the framer takes (R141, R142). -/
abbrev PayloadTaken (c : Cfg) (pl : Payload) : Prop :=
  pl = .absent 0 ∨ ∃ data, pl = .present data ∧ 1 ≤ data.length ∧ data.length ≤ c.maxCmdSize.toNat - 7

/-- The operands are in the ranges of R101 (and, for a wire command, its payload is the one its row gives, R92). -/
def ArgumentsValid (c : Cfg) : Instr → Prop
  | .crcCompute _ => True
  | .crcValidate _ => True
  | .frameBuild _ _ _ pl => PayloadTaken c pl
  | .wake => True
  | .sleep => True
  | .transact _ _ _ pl n _ _ _ => n.toNat ≤ 252 ∧ PayloadTaken c pl
  | .readWord zsel _ => zsel.toNat ≤ 2
  | .readSerial => True
  | .readConfigZone => True
  | .readLockStatus => True
  | .random k => 1 ≤ k.toNat ∧ k.toNat ≤ 32
  | .randomRange lo hi => lo.toNat ≤ hi.toNat
  | .hash _ => True
  | .aesEncrypt _ blk => blk.length = 16
  | .aesDecrypt _ blk => blk.length = 16
  | .cmdRead _ _ => True
  | .cmdWrite _ _ pl n _ _ _ => n.toNat ≤ 252 ∧ PayloadTaken c pl
  | .cmdRandom => True
  | .cmdShaStart => True
  | .cmdShaUpdate chunk => chunk.length = 64
  | .cmdShaEnd tail => tail.length < 64
  | .cmdAesEnc _ blk => blk.length = 16
  | .cmdAesDec _ blk => blk.length = 16
  | .tokenWake => True
  | .tokenSleep => True

/-- The codes an exchange can end with (R303-R308), given what it expects, checks and requires. -/
def exchangeCodes (n : Nat) (check exact : Bool) : List Nat :=
  [0, 2, 3, 4, 7] ++ (if exact = false ∧ 3 ≤ n then [5] else []) ++ (if check = true then [6] else []) ++
    (if 0 < n then [8] else [])

/-- The table of R317 for valid arguments, the wire commands having the codes of their exchange. -/
def codesOf : Instr → List Nat
  | .crcCompute _ => [0]
  | .crcValidate _ => [0]
  | .frameBuild _ _ _ _ => [0]
  | .wake => [0, 3, 9]
  | .sleep => [0, 3]
  | .transact _ _ _ _ n chk ex _ => exchangeCodes n.toNat chk ex
  | .readWord _ _ => [0, 2, 3, 4, 5, 6, 7, 8]
  | .readSerial => [0, 2, 3, 4, 5, 6, 7, 8]
  | .readConfigZone => [0, 2, 3, 4, 5, 6, 7, 8]
  | .readLockStatus => [0, 2, 3, 4, 5, 6, 7, 8, 10]
  | .random _ => [0, 2, 3, 4, 5, 6, 7, 8]
  | .randomRange _ _ => [0, 2, 3, 4, 5, 6, 7, 8]
  | .hash _ => [0, 2, 3, 4, 5, 6, 7, 8]
  | .aesEncrypt _ _ => [0, 2, 3, 4, 6, 7, 8]
  | .aesDecrypt _ _ => [0, 2, 3, 4, 6, 7, 8]
  | .cmdRead _ _ => [0, 2, 3, 4, 5, 6, 7, 8]
  | .cmdWrite _ _ _ n chk ex _ => exchangeCodes n.toNat chk ex
  | .cmdRandom => [0, 2, 3, 4, 5, 6, 7, 8]
  | .cmdShaStart => [0, 2, 3, 4, 7]
  | .cmdShaUpdate _ => [0, 2, 3, 4, 7]
  | .cmdShaEnd _ => [0, 2, 3, 4, 5, 6, 7, 8]
  | .cmdAesEnc _ _ => [0, 2, 3, 4, 6, 7, 8]
  | .cmdAesDec _ _ => [0, 2, 3, 4, 6, 7, 8]
  | .tokenWake => [0, 3]
  | .tokenSleep => [0, 3]

/-! ### Inside an operation -/

/-- The state a part of an operation passes along, or raises its error in. -/
def Reply.state {α : Type} : Reply α → State
  | .val _ s => s
  | .raised _ s => s

/-- An operation is in progress: BUSY is 1, and PHASE is not IDLE (R25, R35). -/
abbrev InProgress (s : State) : Prop := s.busy = true ∧ s.phase ≠ .idle

/-! ### Runs -/

/-- The events a step added. -/
def newEvents (s t : State) : List Event := t.trace.drop s.trace.length

/-- The bytes of the sends among these events, in order (R61). -/
def sentBytes : List Event → List (List Byte)
  | [] => []
  | .send _ bytes _ :: more => bytes :: sentBytes more
  | .wait _ :: more => sentBytes more
  | .recv _ _ _ _ :: more => sentBytes more

/-- The events of a list of exchanges, of which only the last may end early or in a FATAL outcome (R221, R223, R224). -/
def exchangeEvents (c : Cfg) : List Event → Bool
  | [] => true
  | [.send _ _ o] => match classify c o with | .fatal _ => true | _ => false
  | .send _ _ o :: .wait _ :: .recv _ _ o' _ :: more =>
    match classify c o, classify c o' with
    | .fatal _, _ => false
    | _, .fatal _ => more.isEmpty
    | _, _ => exchangeEvents c more
  | _ => false

/-- An outcome with TOLERATED read as OK (R63). -/
def forgive (c : Cfg) : XOutcome → XOutcome
  | .ok => .ok
  | .err code => if code = c.xportIo ∨ code = c.xportNoresp then .ok else .err code

/-- s with every TOLERATED answer of the script read as OK. -/
def forgiven (s : State) : State :=
  { s with oracle := s.oracle.map fun a => { a with outcome := forgive s.cfg a.outcome } }

/-- An event with a TOLERATED outcome read as OK. -/
def forgiveEvent (c : Cfg) : Event → Event
  | .send addr bytes o => .send addr bytes (forgive c o)
  | .wait ticks => .wait ticks
  | .recv addr len o bytes => .recv addr len (forgive c o) bytes

/-- The outcome registers and the session of two states agree: what R65 calls the final values. -/
abbrev SameOutcome (s t : State) : Prop :=
  s.session = t.session ∧ s.err0 = t.err0 ∧ s.err1 = t.err1 ∧ s.err2 = t.err2 ∧ s.result = t.result

/-- The block between two operations: idle, its registers in the form the rules leave them in. -/
structure Resting (s : State) : Prop where
  /-- No operation is in progress (R25), so the hidden state is idle (R35, R36, R311, R312). -/
  idle : s.busy = false ∧ s.phase = .idle ∧ s.timer = 0 ∧ s.ctxStep = 0 ∧ s.acc = []
  /-- RESULT_LEN is at most RESULT_CAP (R32). -/
  resultFits : s.result.length ≤ 255
  /-- ERR describes one outcome, every field it does not name being 0 (R30, R31). -/
  outcome : (s.err0 = 0 ∧ s.err1 = 0 ∧ s.err2 = 0) ∨ ∃ e : Err, s.err0 = e.err0 ∧ s.err1 = e.err1 ∧ s.err2 = e.err2
  /-- An error leaves no RESULT, but DOMAIN_DECODE the pair it could not decode (R33). -/
  resultOfError : errCode s.err0 ≠ 0 → s.result.length = if errCode s.err0 = 10 then 2 else 0
  /-- After TRANSPORT or WAKE_FAILURE the session is Faulted (R195). -/
  faulted : errCode s.err0 = 3 ∨ errCode s.err0 = 9 → s.session = .faulted
  /-- After NOT_AWAKE the session is not Awake (R302). -/
  refused : errCode s.err0 = 2 → s.session ≠ .awake

/-- Run instructions one after another, stopping after the first that ends with an error. -/
def runUntilError : List Instr → State → State
  | [], s => s
  | i :: more, s =>
    match exec i s with
    | .next t => if t.err0 = 0 then runUntilError more t else t
    | _ => s

/-- The wire commands of a hash of data (R248). -/
def hashCommands (data : List Byte) : List Instr :=
  .cmdShaStart ::
    ((List.range (data.length / 64)).map fun i => Instr.cmdShaUpdate ((data.drop (64 * i)).take 64)) ++
      [.cmdShaEnd (data.drop (64 * (data.length / 64)))]

end Sys2Proof.Machine
end

