-- ==== Sys2Proof/Certificates/Slice0/Obligations.lean ====
section
/-! DEFINITION. The statements for the provers. The rules R<n> are those of spec/; a statement that rests on a choice of
the model names its log entry. Every result statement gives the whole next state, so it is its own frame: an update
`{ s with … }` leaves every other field of s as it was. -/

open Sys2Proof Sys2Proof.Machine

/-! ### Reading an instruction -/

/-- A step runs the instruction that the next request decodes to, in the state that has handed the request over (R22,
R66; requests are the model's, notes/assumptions/3.md). That a step hands the request over and adds nothing else is
all that step does around exec. -/
def Obligations.StepRunsTheDecodedInstruction : Prop :=
  ∀ (s : State) (r : Request) (more : List Request) (i : Instr), s.requests = r :: more → decode s.cfg r = .instr i →
    step s = exec i { s with requests := more }

/-- Words written out from the encodings of R80, R89, R98 and R99 decode to what they stand for (the order of a
descriptor's bytes is the model's, notes/assumptions/5.md; the values of the OPEN fields are CFG_REF's). -/
def Obligations.WordsFromTheSpecDecode : Prop :=
  decode Config.cfgRef (.descriptor [0x01, 0x02, 0x00, 0x00, 0x00, 0xAB, 0xCD]) = .instr (.crcCompute [0xAB, 0xCD]) ∧
  decode Config.cfgRef (.descriptor [0x20, 0x02, 0x00, 0x34, 0x12, 0x00, 0x00, 0x04, 0x01, 0x00, 0x0A, 0x00, 0x00, 0x00]) =
    .instr (.transact 0x02 0x00 0x1234 (.absent 0) 4 true false 10) ∧
  decode Config.cfgRef (.descriptor [0x30, 0x02, 0x34, 0x12]) = .instr (.readWord 2 0x1234) ∧
  decode Config.cfgRef (.wire [0x07, 0x02, 0x00, 0x15, 0x00, 0x17, 0x5D]) = .instr (.cmdRead 0x00 0x0015) ∧
  decode Config.cfgRef (.wire [0x00]) = .instr .tokenWake

/-- Decode of encode is the instruction: no bit of an encoding is dropped. For the wire units the OPEN opcodes and tokens
must tell the rows apart (notes/assumptions/6.md). -/
def Obligations.DecodeOfEncodeIsTheInstruction : Prop :=
  ∀ (c : Cfg) (i : Instr), wellFormed i = true → (isHostOp i = true ∨ c.WireDistinct) → decode c (encode c i) = .instr i

/-- Every request that decodes to an instruction is that instruction's encoding: it has one encoding and no other. -/
def Obligations.EncodeOfDecodeIsTheRequest : Prop :=
  ∀ (c : Cfg) (r : Request) (i : Instr), decode c r = .instr i → encode c i = r

/-- What decodes is well-formed (R102). -/
def Obligations.DecodedInstructionsAreWellFormed : Prop :=
  ∀ (c : Cfg) (r : Request) (i : Instr), decode c r = .instr i → wellFormed i = true

/-- Every line of a host program is exactly one host operation, and one descriptor that decodes to it (R104, R105; the text
is read as notes/assumptions/22.md says, and the descriptor's bytes are the model's, notes/assumptions/5.md). -/
def Obligations.LinesAreHostOperations : Prop :=
  ∀ (line : List Char) (i : Instr), assembleLine line = some i →
    isHostOp i = true ∧ wellFormed i = true ∧
      ∃ bytes, ∀ c : Cfg, encode c i = .descriptor bytes ∧ decode c (.descriptor bytes) = .instr i

/-- R100: the unassigned HOP values are those listed; a descriptor with one is accepted and completes at once with
INVALID_ARGUMENT, without a bus event and without a change to SESSION; and so does READ_WORD with ZSEL = 3. That a record
with an unassigned HOP is accepted whatever bytes follow the HOP is the model's choice (notes/assumptions/5.md), and so is
the queue of requests it is taken from (notes/assumptions/3.md), and that TXBUF, RXBUF and CRCREG are unchanged
(notes/assumptions/9.md and 18.md). -/
def Obligations.UnassignedOperationsAreRefused : Prop :=
  (∀ hop : Byte, hopAssigned hop = false ↔
    hop = 0x00 ∨ (0x04 ≤ hop ∧ hop ≤ 0x0F) ∨ (0x12 ≤ hop ∧ hop ≤ 0x1F) ∨ (0x21 ≤ hop ∧ hop ≤ 0x2F) ∨
    (0x34 ≤ hop ∧ hop ≤ 0x3F) ∨ (0x42 ≤ hop ∧ hop ≤ 0x4F) ∨ (0x51 ≤ hop ∧ hop ≤ 0x5F) ∨ 0x62 ≤ hop) ∧
  (∀ (s : State) (hop : Byte) (rest : List Byte) (more : List Request), s.busy = false →
    s.requests = .descriptor (hop :: rest) :: more → hopAssigned hop = false →
    step s = .next { s with
      requests := more, err0 := 1, err1 := 0, err2 := 0, result := []
      phase := .idle, timer := 0, ctxStep := 0, acc := [] }) ∧
  (∀ (s : State) (addr : U16), s.busy = false →
    exec (.readWord 3 addr) s = .next { s with
      err0 := 1, err1 := 0, err2 := 0, result := []
      phase := .idle, timer := 0, ctxStep := 0, acc := [] })

/-! ### Registers -/

/-- The layout of STAT and the encoding of SESSION (R23, R26). -/
def Obligations.StatusWordLayout : Prop :=
  (∀ s : State, (stat s).getLsbD 0 = s.busy ∧ (stat s).extractLsb' 1 2 = s.session.code ∧ (stat s).extractLsb' 3 5 = 0) ∧
  Session.asleep.code = 0b00 ∧ Session.awake.code = 0b01 ∧ Session.faulted.code = 0b10

/-- Error entry, one line for each error (R27-R30, R195, R196, R312): the code and the named fields in the error
registers, every other field of them 0; RESULT emptied but for DOMAIN_DECODE; SESSION Faulted after TRANSPORT and
WAKE_FAILURE alone; the hidden state idle and BUSY 0; nothing else changed. -/
def Obligations.ErrorEntryRecords : Prop :=
  ∀ s : State,
    let entry (err0 err1 err2 : U32) (session : Session) (result : List Byte) : State :=
      { s with
        err0 := err0, err1 := err1, err2 := err2, session := session, result := result
        phase := .idle, timer := 0, ctxStep := 0, acc := [], busy := false }
    let fields (count status code : Byte) : U32 := 0x00#8 ++ count ++ status ++ code
    errorEntry .invalidArgument s = entry (fields 0 0 1) 0 0 s.session [] ∧
    errorEntry .notAwake s = entry (fields 0 0 2) 0 0 s.session [] ∧
    (∀ x, errorEntry (.transport x) s = entry (fields 0 0 3) 0 x .faulted []) ∧
    (∀ c, errorEntry (.malformedFrame c) s = entry (fields c 0 4) 0 0 s.session []) ∧
    (∀ c, errorEntry (.insufficientData c) s = entry (fields c 0 5) 0 0 s.session []) ∧
    (∀ rx calculated, errorEntry (.integrity rx calculated) s = entry (fields 0 0 6) (calculated ++ rx) 0 s.session []) ∧
    (∀ st, errorEntry (.deviceStatus st) s = entry (fields 0 st 7) 0 0 s.session []) ∧
    errorEntry .emptySuccess s = entry (fields 0 0x00 8) 0 0 s.session [] ∧
    (∀ c st, errorEntry (.wakeFailure c st) s = entry (fields c st 9) 0 0 .faulted []) ∧
    errorEntry .domainDecode s = entry (fields 0 0 10) 0 0 s.session s.result

/-- Completion with success (R311): RESULT receives the output, the error registers are 0, the hidden state is idle and
BUSY is 0; SESSION and everything else stays. -/
def Obligations.CompletionClearsTheError : Prop :=
  ∀ (r : List Byte) (s : State),
    complete r s = { s with
      result := r, err0 := 0, err1 := 0, err2 := 0
      phase := .idle, timer := 0, ctxStep := 0, acc := [], busy := false }

/-- Reset gives every piece of the block's state its value of R42, and makes no bus event (R341). -/
def Obligations.ResetGivesTheResetValues : Prop :=
  let s := State.reset
  s.session.code = 0b00 ∧ s.busy = false ∧ s.err0 = 0 ∧ s.err1 = 0 ∧ s.err2 = 0 ∧ resultLen s = 0 ∧ s.phase = .idle ∧
    s.timer = 0 ∧ s.crcReg = 0x0000 ∧ s.txBuf = [] ∧ s.rxBuf = [] ∧ s.ctxStep = 0 ∧ s.acc = [] ∧ s.trace = []

/-- The commands the library sends are the rows of R92. -/
def Obligations.LibraryCommandsAreTheTableRows : Prop :=
  ∀ c : Cfg,
    (∀ zone addr, readExchange c zone addr = ⟨c.opRead, zone, addr, .absent 0, 4, true, false, c.tRead⟩) ∧
    randomExchange c = ⟨c.opRandom, 0x00, 0x0000, .absent 0, 32, true, false, c.tRandom⟩ ∧
    shaStartExchange c = ⟨c.opSha, 0x00, 0x0000, .absent 0, 0, true, false, c.tSha⟩ ∧
    (∀ chunk, shaUpdateExchange c chunk = ⟨c.opSha, 0x01, 0x0000, .present chunk, 0, true, false, c.tSha⟩) ∧
    shaEndExchange c [] = ⟨c.opSha, 0x02, 0x0000, .absent 0, 32, true, false, c.tSha⟩ ∧
    (∀ b tail, shaEndExchange c (b :: tail) =
      ⟨c.opSha, 0x02, BitVec.ofNat 16 (tail.length + 1), .present (b :: tail), 32, true, false, c.tSha⟩) ∧
    (∀ slot blk, aesExchange c 0x00 slot blk = ⟨c.opAes, 0x00, slot, .present blk, 16, true, true, c.tAes⟩) ∧
    (∀ slot blk, aesExchange c 0x01 slot blk = ⟨c.opAes, 0x01, slot, .present blk, 16, true, true, c.tAes⟩)

/-- The layout of a command frame with a payload of N bytes (R80-R83). -/
def Obligations.FramesAreLaidOut : Prop :=
  ∀ (opc p1 : Byte) (p2 : U16) (data : List Byte), data.length ≤ 248 →
    let f := frameOf opc p1 p2 data
    let n := data.length
    f.length = 7 + n ∧ (∃ count : Byte, f[0]? = some count ∧ count.toNat = 7 + n) ∧ f[1]? = some opc ∧ f[2]? = some p1 ∧
      f[3]? = some (p2.extractLsb' 0 8) ∧ f[4]? = some (p2.extractLsb' 8 8) ∧ (∀ j < n, f[5 + j]? = data[j]?) ∧
      f[5 + n]? = some ((crc16 (f.take (5 + n))).extractLsb' 0 8) ∧
      f[6 + n]? = some ((crc16 (f.take (5 + n))).extractLsb' 8 8)

/-- LockDecode is the table of R244, complete. -/
def Obligations.LockDecodeIsItsTable : Prop :=
  ∀ cfgLock dataLock : Byte,
    (lockDecode cfgLock dataLock = some 0x00 ↔ cfgLock = 0x00 ∧ dataLock = 0x00) ∧
    (lockDecode cfgLock dataLock = some 0x01 ↔ cfgLock = 0x00 ∧ dataLock = 0x55) ∧
    (lockDecode cfgLock dataLock = some 0x02 ↔ cfgLock = 0x55 ∧ dataLock = 0x55) ∧
    (lockDecode cfgLock dataLock = none ↔
      ¬(cfgLock = 0x00 ∧ dataLock = 0x00) ∧ ¬(cfgLock = 0x00 ∧ dataLock = 0x55) ∧ ¬(cfgLock = 0x55 ∧ dataLock = 0x55))

/-! ### The host port and the outcome of every operation -/

/-- Every operation the port accepts completes with one outcome (R31, R300): BUSY returns to 0, and the error registers
hold success or exactly one error with its fields. -/
def Obligations.AcceptedOperationsComplete : Prop :=
  ∀ (i : Instr) (s : State), s.busy = false → ∃ t, exec i s = .next t ∧ t.busy = false ∧
    ((t.err0 = 0 ∧ t.err1 = 0 ∧ t.err2 = 0) ∨ ∃ e : Err, t.err0 = e.err0 ∧ t.err1 = e.err1 ∧ t.err2 = e.err2)

/-- An error leaves RESULT empty, but DOMAIN_DECODE two bytes (R33, R310); and RESULT never grows past RESULT_CAP (R32). -/
def Obligations.ErrorsLeaveNoResult : Prop :=
  ∀ (i : Instr) (s t : State), s.busy = false → exec i s = .next t →
    (errCode t.err0 ≠ 0 → t.result.length = if errCode t.err0 = 10 then 2 else 0) ∧ t.result.length ≤ 255

/-- While BUSY the port does not take an operation: it has no effect on state or trace (R346). -/
def Obligations.BusyPortTakesNothing : Prop :=
  ∀ (i : Instr) (s : State), s.busy = true → exec i s = .next s

/-- SESSION after an operation, by what the operation is and how it ended (R190, R195, R196, R198). The two tokens alone
are wire units and no host operation: the model gives them the send's part of the rule (notes/assumptions/7.md). -/
def Obligations.SessionFollowsTheTable : Prop :=
  ∀ (i : Instr) (s t : State), s.busy = false → exec i s = .next t →
    t.session =
      match kindOf i with
      | .wake => if t.err0 = 0 then .awake else .faulted
      | .sleep => if t.err0 = 0 then .asleep else .faulted
      | .checksum => s.session
      | .framer => s.session
      | .transact | .library | .wire | .token => if errCode t.err0 = 3 then .faulted else s.session

/-- A command with valid arguments outside Awake ends in NOT_AWAKE: no bus event, SESSION and all else as it was
(R190, R197, R302). TRANSACT, and the wire commands that the model runs like it (notes/assumptions/6.md), build the
frame before the gate (R222), so that the two hidden registers the framer writes change. What the buffers hold after
it is the model's choice (notes/assumptions/9.md). -/
def Obligations.CommandsNeedAwake : Prop :=
  (∀ (i : Instr) (s : State), s.busy = false → s.session ≠ .awake → ArgumentsValid s.cfg i → isCommand i = true →
    (∀ opc p1 p2 pl n chk ex dly, i ≠ .transact opc p1 p2 pl n chk ex dly) →
    exec i s = .next (errorEntry .notAwake s)) ∧
  (∀ (i : Instr) (x : Exchange) (s : State), s.busy = false → s.session ≠ .awake → ArgumentsValid s.cfg i →
    (wireExchange s.cfg i = some x ∨
      ∃ n : Byte, i = .transact x.opc x.p1 x.p2 x.pl n x.check x.exact x.delay) →
    exec i s = .next (errorEntry .notAwake
      { s with txBuf := exchangeFrame x, crcReg := crc16 (frameBody x.opc x.p1 x.p2 (payloadBytes x.pl)) }))

/-- An operand outside its range ends the operation with INVALID_ARGUMENT, in every session state, before any bus event,
with nothing else changed (R101, R301, R316, and for CMD_WRITE notes/assumptions/6.md). That TXBUF, RXBUF and CRCREG are
unchanged too, after a failed Build as elsewhere, is the model's choice (notes/assumptions/9.md and 18.md; R144 gives TXBUF
no meaning there). -/
def Obligations.BadArgumentsAreRefused : Prop :=
  ∀ (i : Instr) (s : State), s.busy = false → ¬ArgumentsValid s.cfg i →
    (isHostOp i = true ∨ ∃ p1 p2 pl n chk ex dly, i = .cmdWrite p1 p2 pl n chk ex dly) →
    exec i s = .next (errorEntry .invalidArgument s)

/-- The operations raise no code but those of their row in R317; the wire commands, which the model runs as TRANSACT runs
(notes/assumptions/6.md), those of their exchange, and the tokens TRANSPORT (notes/assumptions/7.md). -/
def Obligations.OperationsRaiseOnlyTheirErrors : Prop :=
  ∀ (i : Instr) (s t : State), s.busy = false → ArgumentsValid s.cfg i → exec i s = .next t →
    (errCode t.err0).toNat ∈ codesOf i

/-- What an operation leaves alone: CFG and the requests always; the transport and RXBUF where it makes no bus event; the
checksum register and TXBUF where it builds no frame (R34, R126, R128, R145, R192, R194). What RXBUF, TXBUF and CRCREG hold
after an operation is the model's (notes/assumptions/9.md and 18.md), and so are the tokens as operations
(notes/assumptions/7.md) and that CFG and the requests are fields of a state (notes/assumptions/1.md and 3.md). -/
def Obligations.OperationsLeaveTheRestAlone : Prop :=
  ∀ (i : Instr) (s t : State), exec i s = .next t →
    t.cfg = s.cfg ∧ t.requests = s.requests ∧
    (isLocal i = true → t.oracle = s.oracle ∧ t.asked = s.asked ∧ t.trace = s.trace ∧ t.rxBuf = s.rxBuf) ∧
    (i = .wake ∨ i = .sleep ∨ i = .tokenWake ∨ i = .tokenSleep → t.crcReg = s.crcReg ∧ t.txBuf = s.txBuf)

/-! ### Checksum engine -/

/-- The checksum, bit by bit: R121's step, R122's eight bits from the least significant up, R123's bytes in order. -/
def Obligations.ChecksumIsBitSerial : Prop :=
  (∀ (reg : U16) (d : Bool),
    crcBit reg d = if d ≠ reg.getLsbD 15 then (reg <<< 1) ^^^ 0x8005#16 else reg <<< 1) ∧
  (∀ (reg : U16) (b : Byte),
    crcByte reg b = crcBit (crcBit (crcBit (crcBit (crcBit (crcBit (crcBit (crcBit reg (b.getLsbD 0)) (b.getLsbD 1))
      (b.getLsbD 2)) (b.getLsbD 3)) (b.getLsbD 4)) (b.getLsbD 5)) (b.getLsbD 6)) (b.getLsbD 7)) ∧
  crc16 [] = 0x0000 ∧
  (∀ (s : List Byte) (b : Byte), crc16 (s ++ [b]) = crcByte (crc16 s) b)

/-- The checksum is linear on sequences of equal length (R129, property 1). -/
def Obligations.ChecksumIsLinear : Prop :=
  ∀ a b : List Byte, a.length = b.length → crc16 (List.zipWith (· ^^^ ·) a b) = crc16 a ^^^ crc16 b

/-- Every frame FRAME_BUILD returns is one that CRC_VALIDATE accepts (R129, property 2). -/
def Obligations.BuiltFramesValidate : Prop :=
  ∀ (opc p1 : Byte) (p2 : U16) (pl : Payload) (s t : State), s.busy = false →
    exec (.frameBuild opc p1 p2 pl) s = .next t → t.err0 = 0 →
    ∃ u, exec (.crcValidate t.result) t = .next u ∧ u.result = [0x01] ∧ u.err0 = 0

/-- Flip any one bit of a sequence that CRC_VALIDATE accepts, and CRC_VALIDATE refuses it (R129, property 3). -/
def Obligations.SingleBitFlipsAreDetected : Prop :=
  ∀ (f : List Byte) (s t : State), s.busy = false → exec (.crcValidate f) s = .next t → t.result = [0x01] →
    ∀ (j k : Nat) (b : Byte), f[j]? = some b → k < 8 →
      ∃ u, exec (.crcValidate (f.set j (b ^^^ BitVec.twoPow 8 k))) s = .next u ∧ u.result = [0x00] ∧ u.err0 = 0

/-- CRC_COMPUTE and CRC_VALIDATE complete in every session state, without a bus event, and leave their results
(R124-R128). What CRCREG, TXBUF and RXBUF hold after them is the model's (notes/assumptions/9.md and 18.md). -/
def Obligations.ChecksumOperationsComplete : Prop :=
  ∀ (data : List Byte) (s : State), s.busy = false →
    exec (.crcCompute data) s = .next (complete (le16 (crc16 data)) { s with crcReg := crc16 data }) ∧
    exec (.crcValidate data) s = .next
      (if data.length < 3 then complete [0x00] s
      else
        let k := data.length - 2
        complete [if crc16 (data.take k) = unle16 (data.drop k) then 0x01 else 0x00] { s with crcReg := crc16 (data.take k) })

/-! ### Framer -/

/-- FRAME_BUILD with a payload the framer takes (R80-R84, R143-R145): the frame is count, opcode, param1, param2
little-endian, payload and checksum trailer; it has 7 + N bytes, at most MAX_CMD_SIZE, and is the RESULT. What TXBUF
holds after it is the model's choice (notes/assumptions/9.md). -/
def Obligations.FrameBuildCompletes : Prop :=
  ∀ (opc p1 : Byte) (p2 : U16) (pl : Payload) (s : State), s.busy = false → PayloadTaken s.cfg pl →
    let data := match pl with
      | .absent _ => []
      | .present data => data
    let body := [BitVec.ofNat 8 (7 + data.length), opc, p1, p2.extractLsb' 0 8, p2.extractLsb' 8 8] ++ data
    let sum := crc16 body
    let frame := body ++ [sum.extractLsb' 0 8, sum.extractLsb' 8 8]
    exec (.frameBuild opc p1 p2 pl) s = .next (complete frame { s with txBuf := frame, crcReg := sum }) ∧
      frame.length = 7 + data.length ∧ 7 + data.length ≤ s.cfg.maxCmdSize.toNat

/-! ### Sequencer -/

/-- WAKE, in every session state: its four ends (R192, R193, R89, R91). What the buffers hold after it is the model's
choice (notes/assumptions/9.md). -/
def Obligations.WakeFollowsItsRule : Prop :=
  ∀ s : State, s.busy = false →
    let buf := bytesAt s 1 4
    let sent : Event := .send s.cfg.wakeAddr [0x00] (outcomeAt s 0)
    let events := s.trace ++ [sent, .wait s.cfg.tWake, .recv s.cfg.busAddr 4 (outcomeAt s 1) buf]
    (∀ code, FatalWith s.cfg (outcomeAt s 0) code →
      exec .wake s = .next (errorEntry (.transport code) { later 1 s with trace := s.trace ++ [sent] })) ∧
    (∀ code, GoesOn s.cfg (outcomeAt s 0) → FatalWith s.cfg (outcomeAt s 1) code →
      exec .wake s = .next (errorEntry (.transport code) { later 2 s with trace := events })) ∧
    (GoesOn s.cfg (outcomeAt s 0) → GoesOn s.cfg (outcomeAt s 1) → buf.getD 0 0 ≠ 4 ∨ buf.getD 1 0 ≠ s.cfg.stWake →
      exec .wake s = .next (errorEntry (.wakeFailure (buf.getD 0 0) (buf.getD 1 0))
        { later 2 s with rxBuf := buf, trace := events })) ∧
    (GoesOn s.cfg (outcomeAt s 0) → GoesOn s.cfg (outcomeAt s 1) → buf.getD 0 0 = 4 → buf.getD 1 0 = s.cfg.stWake →
      exec .wake s = .next (complete [] { later 2 s with rxBuf := buf, trace := events, session := .awake }))

/-- SLEEP, in every session state: its two ends (R194, R90). What TXBUF, RXBUF and CRCREG hold after it is the model's
choice (notes/assumptions/9.md and 18.md). -/
def Obligations.SleepFollowsItsRule : Prop :=
  ∀ s : State, s.busy = false →
    let sent : Event := .send s.cfg.busAddr [s.cfg.sleepToken] (outcomeAt s 0)
    (∀ code, FatalWith s.cfg (outcomeAt s 0) code →
      exec .sleep s = .next (errorEntry (.transport code) { later 1 s with trace := s.trace ++ [sent] })) ∧
    (GoesOn s.cfg (outcomeAt s 0) →
      exec .sleep s = .next (complete []
        { later 1 s with trace := s.trace ++ [sent, .wait s.cfg.tSleep], session := .asleep }))

/-- The wire tokens alone: the send that WAKE and SLEEP begin with, and no change to SESSION where it goes through
(R89, R90; that a token by itself is such an operation is the model's choice, notes/assumptions/7.md, and so is what TXBUF,
RXBUF and CRCREG hold after it, notes/assumptions/9.md and 18.md). -/
def Obligations.TokensAreOneSend : Prop :=
  ∀ s : State, s.busy = false →
    let wakeSent : State := { later 1 s with trace := s.trace ++ [.send s.cfg.wakeAddr [0x00] (outcomeAt s 0)] }
    let sleepSent : State := { later 1 s with trace := s.trace ++ [.send s.cfg.busAddr [s.cfg.sleepToken] (outcomeAt s 0)] }
    (∀ code, FatalWith s.cfg (outcomeAt s 0) code →
      exec .tokenWake s = .next (errorEntry (.transport code) wakeSent) ∧
      exec .tokenSleep s = .next (errorEntry (.transport code) sleepSent)) ∧
    (GoesOn s.cfg (outcomeAt s 0) →
      exec .tokenWake s = .next (complete [] wakeSent) ∧ exec .tokenSleep s = .next (complete [] sleepSent))

/-- The settle timer (R191, R64): loaded with T it holds T - k after k ticks, so it runs out after exactly T of them, at
once where T = 0; Wait(T) is the loading, the T ticks and the event WAIT(T). That the T ticks pass within the one event
WAIT(T), and that a tick is the function `tick`, which the machine itself never calls, is the model's choice
(notes/assumptions/10.md). -/
def Obligations.SettleTimerRunsOut : Prop :=
  ∀ (ticks : U32) (s : State),
    (∀ k, (tick^[k] (loadTimer ticks s)).timer = ticks.toNat - k) ∧
    (loadTimer ticks s).phase = .settle ∧
    wait ticks s = { tick^[ticks.toNat] (loadTimer ticks s) with trace := s.trace ++ [.wait ticks] }

/-! ### Dispatcher and reader -/

/-- TRANSACT with valid arguments while Awake, whatever the oracle answers (R171, R221-R223): one send of `CMD_PREFIX
++ frame`; where it is not FATAL one wait and one receive of max(4, N + 3) bytes; where that is not FATAL the outcome
is the row of R171's table that the bytes meet. What the buffers hold after it is the model's choice
(notes/assumptions/9.md). -/
def Obligations.TransactFollowsTheReadersTable : Prop :=
  ∀ (opc p1 : Byte) (p2 : U16) (pl : Payload) (n : Byte) (chk ex : Bool) (dly : U32) (s : State), s.busy = false →
    s.session = .awake → n.toNat ≤ 252 → PayloadTaken s.cfg pl →
    let x : Exchange := ⟨opc, p1, p2, pl, n.toNat, chk, ex, dly⟩
    let buf := exchangeBytes x s
    let c := (buf.getD 0 0).toNat
    let rx := unle16 ((buf.take c).drop (c - 2))
    let sum := crc16 (buf.take (c - 2))
    let t := exchanged x s
    exec (.transact opc p1 p2 pl n chk ex dly) s = .next
      (match classify s.cfg (outcomeAt s 0), classify s.cfg (outcomeAt s 1) with
      | .fatal code, _ => errorEntry (.transport code) (sentOnly x s)
      | _, .fatal code => errorEntry (.transport code) (unparsed x s)
      | _, _ =>
        if c < 4 then errorEntry (.malformedFrame (buf.getD 0 0)) t
        else if c > max 4 (n.toNat + 3) then errorEntry (.malformedFrame (buf.getD 0 0)) t
        else if c = 4 then
          if buf.getD 1 0 ≠ 0x00 then errorEntry (.deviceStatus (buf.getD 1 0)) t
          else if n.toNat > 0 then errorEntry .emptySuccess t
          else complete [] t
        else if ex = true ∧ c ≠ n.toNat + 3 then errorEntry (.malformedFrame (buf.getD 0 0)) t
        else if c - 3 < n.toNat then errorEntry (.insufficientData (buf.getD 0 0)) t
        else if chk = true ∧ rx ≠ sum then errorEntry (.integrity rx sum) t
        else complete ((buf.drop 1).take n.toNat) t)

/-- With the checksum asked for and N ≥ 1, TRANSACT succeeds exactly on the intact response that carries N bytes (R87),
and then returns exactly these (R160, R169); N = 1 never succeeds (R222). -/
def Obligations.TransactReturnsIntactPayloads : Prop :=
  ∀ (opc p1 : Byte) (p2 : U16) (pl : Payload) (n : Byte) (ex : Bool) (dly : U32) (s t : State), s.busy = false →
    s.session = .awake → n.toNat ≤ 252 → PayloadTaken s.cfg pl → 1 ≤ n.toNat →
    GoesOn s.cfg (outcomeAt s 0) → GoesOn s.cfg (outcomeAt s 1) →
    exec (.transact opc p1 p2 pl n true ex dly) s = .next t →
    (n = 1 → t.err0 ≠ 0) ∧
    (t.err0 = 0 ↔ 2 ≤ n.toNat ∧ ∃ p, p.length = n.toNat ∧ bytesAt s 1 (n.toNat + 3) = intact p) ∧
    (∀ p, p.length = n.toNat → 2 ≤ n.toNat → bytesAt s 1 (n.toNat + 3) = intact p → t.result = p)

/-- TRANSACT whose exchange the reader accepts returns the payload, of exactly N bytes, and leaves what one exchange
leaves (R222, R169). What the buffers hold after it is the model's choice (notes/assumptions/9.md). -/
def Obligations.TransactCompletes : Prop :=
  ∀ (opc p1 : Byte) (p2 : U16) (pl : Payload) (n : Byte) (chk ex : Bool) (dly : U32) (s : State) (p : List Byte),
    s.busy = false → s.session = .awake → n.toNat ≤ 252 → PayloadTaken s.cfg pl →
    Answers s [⟨opc, p1, p2, pl, n.toNat, chk, ex, dly⟩] [p] →
    exec (.transact opc p1 p2 pl n chk ex dly) s = .next
        (complete p (exchanged ⟨opc, p1, p2, pl, n.toNat, chk, ex, dly⟩ s)) ∧
      p.length = n.toNat

/-- The wire commands, each the one exchange of its row (R92, R97): run by the raw dispatcher, which is the model's
reading of such a row as an instruction (notes/assumptions/6.md). All outcomes; and where the reader accepts, success
with the payload. The commands are cmdRead, cmdWrite, cmdRandom, cmdShaStart, cmdShaUpdate, cmdShaEnd, cmdAesEnc and
cmdAesDec. What the buffers hold after them is the model's choice (notes/assumptions/9.md). -/
def Obligations.WireCommandsComplete : Prop :=
  ∀ (i : Instr) (x : Exchange) (s : State), wireExchange s.cfg i = some x → ArgumentsValid s.cfg i → s.busy = false →
    s.session = .awake →
    exec i s = .next (afterPlan complete [x] [] s) ∧
    ∀ p, Answers s [x] [p] → exec i s = .next (complete p (exchanged x s)) ∧ p.length = x.expect

/-! ### Library -/

/-- READ_WORD of each zone: the 4 bytes of the response (R241, R95). What the buffers hold after it is the model's
choice (notes/assumptions/9.md). -/
def Obligations.ReadWordCompletes : Prop :=
  ∀ (zsel : BitVec 2) (zone : Byte) (addr : U16) (s : State) (p : List Byte), s.busy = false → s.session = .awake →
    (zsel = 0 ∧ zone = s.cfg.zoneConfig) ∨ (zsel = 1 ∧ zone = s.cfg.zoneOtp) ∨ (zsel = 2 ∧ zone = s.cfg.zoneData) →
    Answers s [readExchange s.cfg zone addr] [p] →
    exec (.readWord zsel addr) s = .next (complete p (exchanged (readExchange s.cfg zone addr) s)) ∧ p.length = 4

/-- READ_SERIAL: words 0 and 2 and the first byte of word 3 of the configuration zone, 9 bytes (R242). What the
buffers hold after it is the model's choice (notes/assumptions/9.md). -/
def Obligations.ReadSerialCompletes : Prop :=
  ∀ (s : State) (a b c : List Byte), s.busy = false → s.session = .awake →
    let plan := [readExchange s.cfg s.cfg.zoneConfig 0x0000, readExchange s.cfg s.cfg.zoneConfig 0x0002,
      readExchange s.cfg s.cfg.zoneConfig 0x0003]
    Answers s plan [a, b, c] →
    exec .readSerial s = .next (complete (a ++ b ++ [c.getD 0 0]) (exchangedAll plan s)) ∧
      a.length = 4 ∧ b.length = 4 ∧ c.length = 4

/-- READ_CONFIG_ZONE: words 0 to 31 in address order, 128 bytes; RESULT[4w + j] is byte j of word w (R243, R53). What
the buffers hold after it is the model's choice (notes/assumptions/9.md). -/
def Obligations.ReadConfigZoneCompletes : Prop :=
  ∀ (s : State) (words : List (List Byte)), s.busy = false → s.session = .awake →
    let plan := (List.range 32).map fun w => readExchange s.cfg s.cfg.zoneConfig (BitVec.ofNat 16 w)
    Answers s plan words →
    exec .readConfigZone s = .next (complete words.flatten (exchangedAll plan s)) ∧ words.flatten.length = 128 ∧
      ∀ w j word, j < 4 → words[w]? = some word → words.flatten[4 * w + j]? = word[j]?

/-- READ_LOCK_STATUS on a word the reader accepts: the table of R244, any other pair being DOMAIN_DECODE with the pair
left in RESULT (R245, R310). What the buffers hold after it is the model's choice (notes/assumptions/9.md). -/
def Obligations.LockStatusFollowsItsTable : Prop :=
  ∀ (s : State) (w : List Byte), s.busy = false → s.session = .awake →
    let x := readExchange s.cfg s.cfg.zoneConfig s.cfg.lockWordAddr
    Answers s [x] [w] →
    let cfgLock := w.getD s.cfg.lockIdxCfg.toNat 0
    let dataLock := w.getD s.cfg.lockIdxData.toNat 0
    let t := exchanged x s
    w.length = 4 ∧
    exec .readLockStatus s = .next
      (if cfgLock = 0x00 ∧ dataLock = 0x00 then complete [0x00] t
      else if cfgLock = 0x00 ∧ dataLock = 0x55 then complete [0x01] t
      else if cfgLock = 0x55 ∧ dataLock = 0x55 then complete [0x02] t
      else errorEntry .domainDecode { t with result := [cfgLock, dataLock] })

/-- RANDOM: the first K of the 32 bytes, the whole response read whatever K is (R246). What the buffers hold after it
is the model's choice (notes/assumptions/9.md). -/
def Obligations.RandomCompletes : Prop :=
  ∀ (k : Byte) (s : State) (p : List Byte), s.busy = false → s.session = .awake → 1 ≤ k.toNat → k.toNat ≤ 32 →
    Answers s [randomExchange s.cfg] [p] →
    exec (.random k) s = .next (complete (p.take k.toNat) (exchanged (randomExchange s.cfg) s)) ∧ p.length = 32

/-- RANDOM_RANGE: the first 8 bytes big-endian, reduced modulo MAX - MIN + 1 in exact arithmetic and offset by MIN;
the result lies between MIN and MAX and is written big-endian (R247, R8). What the buffers hold after it is the
model's choice (notes/assumptions/9.md). -/
def Obligations.RandomRangeStaysInRange : Prop :=
  ∀ (lo hi : U64) (s : State) (p : List Byte), s.busy = false → s.session = .awake → lo.toNat ≤ hi.toNat →
    Answers s [randomExchange s.cfg] [p] →
    ∃ x : U64,
      exec (.randomRange lo hi) s = .next (complete (tobe64 x) (exchanged (randomExchange s.cfg) s)) ∧
      x.toNat = lo.toNat + beNat (p.take 8) % (hi.toNat - lo.toNat + 1) ∧
      lo.toNat ≤ x.toNat ∧ x.toNat ≤ hi.toNat ∧ (tobe64 x).length = 8 ∧ beNat (tobe64 x) = x.toNat

/-- HASH of a message all of whose phases the reader accepts: the start and update phases return nothing, and RESULT
is the 32-byte digest of the end phase (R248, R249). What the buffers hold after it is the model's choice
(notes/assumptions/9.md). -/
def Obligations.HashCompletes : Prop :=
  ∀ (data : List Byte) (s : State) (ps : List (List Byte)), s.busy = false → s.session = .awake →
    Answers s (hashPlan s.cfg data) ps →
    ∃ digest, ps = List.replicate (data.length / 64 + 1) [] ++ [digest] ∧ digest.length = 32 ∧
      exec (.hash data) s = .next (complete digest (exchangedAll (hashPlan s.cfg data) s))

/-- AES_ENCRYPT and AES_DECRYPT: the 16 bytes of the response (R250-R252). What the buffers hold after it is the
model's choice (notes/assumptions/9.md). -/
def Obligations.CiphersComplete : Prop :=
  ∀ (slot : U16) (blk : List Byte) (s : State) (p : List Byte), s.busy = false → s.session = .awake → blk.length = 16 →
    (Answers s [aesExchange s.cfg 0x00 slot blk] [p] →
      exec (.aesEncrypt slot blk) s = .next (complete p (exchanged (aesExchange s.cfg 0x00 slot blk) s)) ∧ p.length = 16) ∧
    (Answers s [aesExchange s.cfg 0x01 slot blk] [p] →
      exec (.aesDecrypt slot blk) s = .next (complete p (exchanged (aesExchange s.cfg 0x01 slot blk) s)) ∧ p.length = 16)

/-- Every library operation with valid arguments while Awake runs its exchanges in order, the first failing one ending
it with its error and nothing sent after it, and assembles RESULT when all have succeeded (R240-R252). What the
buffers hold after it is the model's choice (notes/assumptions/9.md). -/
def Obligations.LibraryOperationsRunTheirPlans : Prop :=
  ∀ s : State, s.busy = false → s.session = .awake →
    (∀ zsel zone addr, zoneCode s.cfg zsel = some zone →
      exec (.readWord zsel addr) s = .next (afterPlan complete [readExchange s.cfg zone addr] [] s)) ∧
    exec .readSerial s = .next (afterPlan (fun r => complete (r.take 9)) (serialPlan s.cfg) [] s) ∧
    exec .readConfigZone s = .next (afterPlan complete (configPlan s.cfg) [] s) ∧
    exec .readLockStatus s = .next (afterPlan
      (fun w t =>
        let cfgLock := w.getD s.cfg.lockIdxCfg.toNat 0
        let dataLock := w.getD s.cfg.lockIdxData.toNat 0
        match lockDecode cfgLock dataLock with
        | some state => complete [state] t
        | none => errorEntry .domainDecode { t with result := [cfgLock, dataLock] })
      [readExchange s.cfg s.cfg.zoneConfig s.cfg.lockWordAddr] [] s) ∧
    (∀ k : Byte, 1 ≤ k.toNat → k.toNat ≤ 32 →
      exec (.random k) s = .next (afterPlan (fun r => complete (r.take k.toNat)) [randomExchange s.cfg] [] s)) ∧
    (∀ lo hi : U64, lo.toNat ≤ hi.toNat →
      exec (.randomRange lo hi) s = .next (afterPlan
        (fun r => complete (tobe64 (reduceRange lo hi (be64 (r.take 8))))) [randomExchange s.cfg] [] s)) ∧
    (∀ data, exec (.hash data) s = .next (afterPlan complete (hashPlan s.cfg data) [] s)) ∧
    (∀ slot blk, blk.length = 16 →
      exec (.aesEncrypt slot blk) s = .next (afterPlan complete [aesExchange s.cfg 0x00 slot blk] [] s) ∧
      exec (.aesDecrypt slot blk) s = .next (afterPlan complete [aesExchange s.cfg 0x01 slot blk] [] s))

/-- The chunk plan (R248): q + 2 commands; their payloads put together are the message; the first carries nothing, the q in
the middle 64 bytes each, the last the r bytes left with PARAM2 = r, and no payload where r = 0. -/
def Obligations.HashPlanCoversTheMessage : Prop :=
  ∀ (c : Cfg) (data : List Byte),
    let plan := hashPlan c data
    let q := data.length / 64
    let r := data.length % 64
    plan.length = q + 2 ∧ (plan.map fun x => payloadBytes x.pl).flatten = data ∧
    plan[0]? = some (shaStartExchange c) ∧
    (∀ i < q, ∃ chunk, plan[i + 1]? = some (shaUpdateExchange c chunk) ∧ chunk.length = 64 ∧
      ∀ j < 64, chunk[j]? = data[64 * i + j]?) ∧
    (∃ x, plan[q + 1]? = some x ∧ x.p1 = 0x02 ∧ x.p2.toNat = r ∧ (payloadBytes x.pl).length = r ∧ x.expect = 32 ∧
      (r = 0 → x.pl = .absent 0) ∧ (r ≠ 0 → x.pl = .present (data.drop (64 * q))))

/-- HASH is its wire commands issued one after another, stopping at the first that fails: the same final state, trace
included (R240, R248, R249; the wire commands as instructions are the model's, notes/assumptions/6.md). What the
buffers hold after it is the model's choice (notes/assumptions/9.md). -/
def Obligations.HashIsItsWireCommands : Prop :=
  ∀ (data : List Byte) (s : State), s.busy = false → s.session = .awake →
    exec (.hash data) s = .next (runUntilError (hashCommands data) s)

/-! ### Every step, every run -/

/-- The block is at rest after reset. -/
def Obligations.ResetIsResting : Prop :=
  Resting State.reset

/-- Every step leads from rest to rest (R25, R30-R33, R35, R36, R40, R195, R302). -/
def Obligations.StepsKeepResting : Prop :=
  ∀ s t : State, Resting s → step s = .next t → Resting t

/-- No step changes CFG (R34). -/
def Obligations.ConfigurationNeverChanges : Prop :=
  ∀ s t : State, step s = .next t → t.cfg = s.cfg

/-- What an operation puts on the port: it adds to the trace and rewrites none of it (R65); every send goes to BUS_ADDR, but
the wake token to WAKE_ADDR; every receive is from BUS_ADDR and yields exactly the bytes asked for, at least 4 (R51, R62,
R161). -/
def Obligations.EventsKeepToThePort : Prop :=
  ∀ (i : Instr) (s t : State), exec i s = .next t →
    ∃ events, t.trace = s.trace ++ events ∧
      ∀ e ∈ events, match e with
        | .send addr bytes _ => addr = s.cfg.busAddr ∨ (addr = s.cfg.wakeAddr ∧ bytes = [0x00])
        | .wait _ => True
        | .recv addr len _ bytes => addr = s.cfg.busAddr ∧ bytes.length = len ∧ 4 ≤ len

/-- A command's events are exchanges, one after another, each a send, a wait and a receive; only the last may stop at a
FATAL outcome, and nothing follows it: no second exchange in flight (R221, R224, R312). And no retry (R223): the k-th send
carries the command of the k-th exchange of the operation's plan, so that none is sent again, and there are at most as
many exchanges as `exchangeBound` says, which is 1 but for READ_SERIAL (3), READ_CONFIG_ZONE (32) and HASH (L div 64 + 2).
For the wire commands this is the model's (notes/assumptions/6.md). -/
def Obligations.OneExchangeInFlight : Prop :=
  ∀ (i : Instr) (s t : State), isCommand i = true ∨ kindOf i = .wire → exec i s = .next t →
    exchangeEvents s.cfg (newEvents s t) = true ∧
    sentBytes (newEvents s t) <+: (planOf s.cfg i).map (fun x => s.cfg.cmdPrefix.toList ++ exchangeFrame x) ∧
    (sentBytes (newEvents s t)).length ≤ exchangeBound i

/-- The block is a function of SESSION, CFG, the operation and the oracle's answers alone (R65, R70): what an earlier
operation left in ERR, RESULT, CRCREG, the buffers and the hidden state changes neither the outcome nor an event. -/
def Obligations.StaleStateDoesNotMatter : Prop :=
  ∀ (i : Instr) (s s' : State), s.busy = false → s'.busy = false → s.session = s'.session → s.cfg = s'.cfg →
    s.oracle = s'.oracle → s.asked = s'.asked →
    ∃ t t', exec i s = .next t ∧ exec i s' = .next t' ∧ SameOutcome t t' ∧ newEvents s t = newEvents s' t' ∧
      t.oracle = t'.oracle ∧ t.asked = t'.asked

/-- A TOLERATED outcome is treated exactly as OK (R63): read every TOLERATED answer of the script as OK, and an operation
has the same outcome and the same events but for the outcomes recorded in them. -/
def Obligations.ToleratedCountsAsOk : Prop :=
  ∀ (i : Instr) (s t : State), exec i s = .next t →
    ∃ t', exec i (forgiven s) = .next t' ∧ SameOutcome t t' ∧
      t'.trace.map (forgiveEvent s.cfg) = t.trace.map (forgiveEvent s.cfg)

/-- CFG is a parameter of the whole machine (R34): a step is the step of the machine with that parameter, on a block that
holds no CFG, put under the same parameter again; and the machine after reset is that machine's reset, the same block for
every parameter (R42). That State holds the two side by side is the model's choice (notes/assumptions/1.md). -/
def Obligations.ConfigurationIsAParameter : Prop :=
  (∀ (c : Cfg) (b : Block), step (b.under c) = outcomeUnder c ((machine c).step b)) ∧
  (∀ c : Cfg, (machine c).reset = Block.reset) ∧ State.reset = Block.reset.under Config.cfg

/-- PHASE is IDLE exactly when BUSY is 0 (R25, R35). An operation is accepted with BUSY 1 and PHASE no longer IDLE; every
part of an operation (the ports, the settle delay, the engines, the exchange, the plan, the dispatcher, the ends of WAKE
and READ_LOCK_STATUS) keeps that in the state it passes along or raises its error in; completion and error entry leave
BUSY 0 and PHASE IDLE. A send leaves PHASE at SEND, a settle delay at SETTLE, a receive at RECV. That PHASE is SEND from
acceptance to the first send, and all through an operation without one, is the model's (notes/assumptions/17.md). -/
def Obligations.PhaseIsIdleExactlyAtRest : Prop :=
  (∀ s : State, InProgress (accepted s) ∧ (accepted s).phase = .send) ∧
  (∀ (body : State → Reply (List Byte)) (s : State), s.busy = false → operate body s = (body (accepted s)).finish) ∧
  (∀ s : State, InProgress s →
    (∀ addr bytes, InProgress (send addr bytes s).state ∧ (send addr bytes s).state.phase = .send) ∧
    (∀ t, InProgress (wait t s) ∧ (wait t s).phase = .settle) ∧
    (∀ addr len, InProgress (recv addr len s).state ∧ (recv addr len s).state.phase = .recv) ∧
    (∀ bytes, InProgress (runCrc bytes s)) ∧
    (∀ opc p1 p2 pl, InProgress (build opc p1 p2 pl s).state) ∧
    (∀ n check exact, InProgress (receive n check exact s).state) ∧
    (∀ x, InProgress (exchange x s).state ∧ InProgress (dispatch x s).state) ∧
    (∀ xs, InProgress (gather xs s).state) ∧
    (∀ buf, InProgress (acceptWake buf s).state) ∧
    (∀ word, InProgress (decodeLock word s).state)) ∧
  (∀ (r : Reply (List Byte)), r.finish.busy = false ∧ r.finish.phase = .idle)
end

