-- ==== Sys2Proof/Laws/Bytes.lean ====
section
/-! SUPPORT. Byte orders and record fields: what is written is read back. -/

namespace Sys2Proof.Machine

@[simp] theorem le16_length (v : U16) : (le16 v).length = 2 := rfl
@[simp] theorem le32_length (v : U32) : (le32 v).length = 4 := rfl
@[simp] theorem le64_length (v : U64) : (le64 v).length = 8 := rfl
@[simp] theorem tobe64_length (v : U64) : (tobe64 v).length = 8 := rfl

theorem halves_append {n m : Nat} (v : BitVec (n + m)) : v.extractLsb' m n ++ v.extractLsb' 0 m = v := by
  ext i hi
  simp only [BitVec.getElem_append, BitVec.getElem_extractLsb']
  split
  · simp [BitVec.getLsbD_eq_getElem hi]
  · rw [show m + (i - m) = i by omega, BitVec.getLsbD_eq_getElem hi]

@[simp] theorem unle16_le16 (v : U16) (r : List Byte) : unle16 (le16 v ++ r) = v := by
  simpa [unle16, le16] using halves_append (n := 8) (m := 8) v

@[simp] theorem unle16_le16_alone (v : U16) : unle16 (le16 v) = v := by
  simpa using unle16_le16 v []

theorem low_append {n m : Nat} (a : BitVec m) (b : BitVec n) : (b ++ a).extractLsb' 0 m = a := by
  ext i hi
  simp [BitVec.getLsbD_append, hi]

theorem high_append {n m : Nat} (a : BitVec m) (b : BitVec n) : (b ++ a).extractLsb' m n = b := by
  ext i hi
  simp [BitVec.getLsbD_append, BitVec.getLsbD_eq_getElem hi]

theorem le16_unle16 (a b : Byte) : le16 (unle16 [a, b]) = [a, b] := by
  have h : unle16 [a, b] = (b ++ a : BitVec (8 + 8)) := rfl
  rw [le16, h]
  exact congrArg₂ (fun x y => [x, y]) (low_append a b) (high_append a b)

@[simp] theorem unle32_le32 (v : U32) (r : List Byte) : unle32 (le32 v ++ r) = v := by
  have h : (le32 v ++ r).drop 2 = le16 (v.extractLsb' 16 16) ++ r := rfl
  have h' : unle16 (le32 v ++ r) = v.extractLsb' 0 16 := by rw [le32, List.append_assoc, unle16_le16]
  rw [unle32, h, h', unle16_le16]
  exact halves_append (n := 16) (m := 16) v

@[simp] theorem unle64_le64 (v : U64) (r : List Byte) : unle64 (le64 v ++ r) = v := by
  have h : (le64 v ++ r).drop 4 = le32 (v.extractLsb' 32 32) ++ r := rfl
  have h' : unle32 (le64 v ++ r) = v.extractLsb' 0 32 := by rw [le64, List.append_assoc, unle32_le32]
  rw [unle64, h, h', unle32_le32]
  exact halves_append (n := 32) (m := 32) v

theorem rdN_append (a r : List Byte) : rdN a.length (a ++ r) = some (a, r) := by
  simp [rdN]

theorem rdN_some {n : Nat} {s a r : List Byte} (h : rdN n s = some (a, r)) : s = a ++ r ∧ a.length = n := by
  simp only [rdN] at h
  split at h
  · next hn =>
    cases h
    exact ⟨(List.take_append_drop n s).symm, by simp [hn]⟩
  · cases h

@[simp] theorem rd16_le16 (v : U16) (r : List Byte) : rd16 (le16 v ++ r) = some (v, r) := by
  rw [rd16, ← le16_length v, rdN_append]; simp

@[simp] theorem rd32_le32 (v : U32) (r : List Byte) : rd32 (le32 v ++ r) = some (v, r) := by
  rw [rd32, ← le32_length v, rdN_append]; simpa using unle32_le32 v []

@[simp] theorem rd64_le64 (v : U64) (r : List Byte) : rd64 (le64 v ++ r) = some (v, r) := by
  rw [rd64, ← le64_length v, rdN_append]; simpa using unle64_le64 v []

@[simp] theorem rdBit_bitByte (b : Bool) (r : List Byte) : rdBit (bitByte b :: r) = some (b, r) := by
  cases b <;> rfl

@[simp] theorem rd2_setWidth (z : BitVec 2) (r : List Byte) : rd2 (z.setWidth 8 :: r) = some (z, r) := by
  have h : ∀ z : BitVec 2, (z.setWidth 8).toNat < 4 ∧ (z.setWidth 8).extractLsb' 0 2 = z := by decide
  rw [rd2, if_pos (h z).1, (h z).2]

/-! ### What is read was written -/

theorem le16_unle16_two {a : List Byte} (h : a.length = 2) : le16 (unle16 a) = a := by
  obtain ⟨x, y, rfl⟩ := List.length_eq_two.mp h; exact le16_unle16 x y

theorem le32_unle32 {a : List Byte} (h : a.length = 4) : le32 (unle32 a) = a := by
  match a, h with
  | [x, y, z, w], _ =>
    have h : unle32 [x,y,z,w] = (unle16 [z,w] ++ unle16 [x,y] : BitVec (16+16)) := rfl
    rw [le32, h]
    have h1 := low_append (unle16 [x,y]) (unle16 [z,w])
    have h2 := high_append (unle16 [x,y]) (unle16 [z,w])
    have := congrArg₂ (fun a b => le16 a ++ le16 b) h1 h2
    refine this.trans ?_
    simp [le16_unle16]

theorem le64_unle64 {a : List Byte} (h : a.length = 8) : le64 (unle64 a) = a := by
  match a, h with
  | [x, y, z, w, x', y', z', w'], _ =>
    have h : unle64 [x,y,z,w,x',y',z',w'] = (unle32 [x',y',z',w'] ++ unle32 [x,y,z,w] : BitVec (32+32)) := rfl
    rw [le64, h]
    have h1 := low_append (unle32 [x,y,z,w]) (unle32 [x',y',z',w'])
    have h2 := high_append (unle32 [x,y,z,w]) (unle32 [x',y',z',w'])
    have := congrArg₂ (fun a b => le32 a ++ le32 b) h1 h2
    refine this.trans ?_
    simp [le32_unle32]

theorem rd8_some {s r : List Byte} {a} (h : rd8 s = some (a, r)) : s = a :: r := by
  cases s <;> simp_all [rd8]

theorem rd16_some {s r : List Byte} {a} (h : rd16 s = some (a, r)) : s = le16 a ++ r := by
  simp only [rd16, Option.map_eq_some_iff, Prod.mk.injEq, Prod.exists] at h
  obtain ⟨x, y, h, rfl, rfl⟩ := h
  obtain ⟨rfl, hl⟩ := rdN_some h
  rw [le16_unle16_two hl]

theorem rd32_some {s r : List Byte} {a} (h : rd32 s = some (a, r)) : s = le32 a ++ r := by
  simp only [rd32, Option.map_eq_some_iff, Prod.mk.injEq, Prod.exists] at h
  obtain ⟨x, y, h, rfl, rfl⟩ := h
  obtain ⟨rfl, hl⟩ := rdN_some h
  rw [le32_unle32 hl]

theorem rd64_some {s r : List Byte} {a} (h : rd64 s = some (a, r)) : s = le64 a ++ r := by
  simp only [rd64, Option.map_eq_some_iff, Prod.mk.injEq, Prod.exists] at h
  obtain ⟨x, y, h, rfl, rfl⟩ := h
  obtain ⟨rfl, hl⟩ := rdN_some h
  rw [le64_unle64 hl]

theorem rdBit_some {s r : List Byte} {a} (h : rdBit s = some (a, r)) : s = bitByte a :: r := by
  cases s with
  | nil => simp [rdBit] at h
  | cons b s =>
    simp only [rdBit] at h
    split at h
    · cases h; simp_all [bitByte]
    · split at h
      · cases h; simp_all [bitByte]
      · cases h

theorem rd2_some {s r : List Byte} {a} (h : rd2 s = some (a, r)) : s = a.setWidth 8 :: r := by
  cases s with
  | nil => simp [rd2] at h
  | cons b s =>
    have hh : ∀ b : BitVec 8, b.toNat < 4 → (b.extractLsb' 0 2).setWidth 8 = b := by decide +kernel
    simp only [rd2] at h
    split at h
    · next hb => cases h; rw [hh b hb]
    · cases h

end Sys2Proof.Machine
end

