-- ==== Sys2Proof/Laws/Checksum.lean ====
section
/-! SUPPORT. The checksum as a fold over the bytes, and what a trailer is to the bytes before it. -/

namespace Sys2Proof.Machine

theorem evaluated_eq {α : Type} (r : U16) (k : U16 → α) : evaluated r k = k r := by
  unfold evaluated
  split
  · next h => rw [show r = 0#16 from BitVec.eq_of_toNat_eq h]
  · next n h => rw [show n + 1 = r.toNat from h.symm, BitVec.ofNat_toNat, BitVec.setWidth_eq]

@[simp] theorem crcRun_nil (reg : U16) : crcRun reg [] = reg := rfl

@[simp] theorem crcRun_cons (reg : U16) (b : Byte) (s : List Byte) : crcRun reg (b :: s) = crcRun (crcByte reg b) s :=
  evaluated_eq _ _

theorem crcRun_append (reg : U16) (s t : List Byte) : crcRun reg (s ++ t) = crcRun (crcRun reg s) t := by
  induction s generalizing reg with
  | nil => rfl
  | cons b s ih => simp [ih]

theorem crc16_append (s t : List Byte) : crc16 (s ++ t) = crcRun (crc16 s) t := crcRun_append _ s t

@[simp] theorem withTrailer_length (s : List Byte) : (withTrailer s).length = s.length + 2 := by simp [withTrailer]

@[simp] theorem covered_withTrailer (s : List Byte) : covered (withTrailer s) = s := by
  simp [covered, withTrailer]

@[simp] theorem trailer_withTrailer (s : List Byte) : trailer (withTrailer s) = crc16 s := by
  simp [trailer, withTrailer]

/-- A sequence of at least two bytes is what its trailer covers and then the trailer. -/
theorem covered_append_trailer {f : List Byte} (h : 2 ≤ f.length) : covered f ++ le16 (trailer f) = f := by
  have hl : (f.drop (f.length - 2)).length = 2 := by simp; omega
  obtain ⟨a, b, hab⟩ := List.length_eq_two.mp hl
  rw [trailer, hab, le16_unle16, ← hab, covered, List.take_append_drop]

/-- The checksum accepts a sequence exactly when it is some nonempty bytes with their own trailer. -/
theorem validate_iff (f : List Byte) : validate f = true ↔ ∃ s, s ≠ [] ∧ f = withTrailer s := by
  constructor
  · intro h
    simp only [validate] at h
    split at h
    · cases h
    · next hl =>
      have h3 : 3 ≤ f.length := by omega
      refine ⟨covered f, ?_, ?_⟩
      · intro h0
        have := congrArg List.length h0
        simp [covered] at this
        omega
      · rw [withTrailer, eq_of_beq h, covered_append_trailer (by omega)]
  · rintro ⟨s, hs, rfl⟩
    have := List.length_pos_iff.mpr hs
    simp [validate]
    omega

@[simp] theorem frameBody_length (opc p1 : Byte) (p2 : U16) (data : List Byte) :
    (frameBody opc p1 p2 data).length = 5 + data.length := by
  simp [frameBody]; omega

@[simp] theorem frameOf_length (opc p1 : Byte) (p2 : U16) (data : List Byte) :
    (frameOf opc p1 p2 data).length = 7 + data.length := by
  simp [frameOf]; omega

end Sys2Proof.Machine
end

