-- ==== Sys2Proof/Laws/Fields.lean ====
section
/-! SUPPORT. The operand fields of a descriptor and the fields of a frame: what is written is read back. -/

namespace Sys2Proof

open Machine

theorem rdN_of_length {n : Nat} {a : List Byte} (h : a.length = n) (r : List Byte) : rdN n (a ++ r) = some (a, r) := by
  subst h; exact rdN_append a r

theorem rdData_encData {data : List Byte} (h : dataFits data = true) (r : List Byte) :
    rdData (encData data ++ r) = some (data, r) := by
  have h' : data.length < 2 ^ 32 := of_decide_eq_true h
  rw [rdData, encData, List.append_assoc, rd32_le32, Option.bind_some]
  exact rdN_of_length (by simp; omega) r

theorem rdBlock_encBlock {data : List Byte} (h : shortFits data = true) (r : List Byte) :
    rdBlock (encBlock data ++ r) = some (data, r) := by
  have h' : data.length < 2 ^ 8 := of_decide_eq_true h
  rw [rdBlock, encBlock, List.cons_append, rd8, Option.bind_some]
  exact rdN_of_length (by simp; omega) r

theorem rdPayload_encPayload {pl : Payload} (h : pl.fits = true) (r : List Byte) :
    rdPayload (encPayload pl ++ r) = some (pl, r) := by
  cases pl with
  | absent plen => rfl
  | present data =>
    rw [rdPayload, encPayload, List.cons_append, show (1 : Byte) = bitByte true from rfl, rdBit_bitByte]
    simp [rdBlock_encBlock h]

theorem rdFrame_written {pl : Payload} (h : pl.fits = true) (opc p1 : Byte) (p2 : U16) (r : List Byte) :
    rdFrame (opc :: p1 :: (le16 p2 ++ (encPayload pl ++ r))) = some ((opc, p1, p2, pl), r) := by
  simp [rdFrame, rd8, rdPayload_encPayload h]

theorem rdReceive_encReceive (n : Byte) (chk ex : Bool) (dly : U32) (r : List Byte) :
    rdReceive (encReceive n chk ex dly ++ r) = some ((n, chk, ex, dly), r) := by
  simp [rdReceive, encReceive, rd8]

/-- The fields of a frame, read where R80 puts them. -/
theorem frameOf_fields (opc p1 : Byte) (p2 : U16) (data rest : List Byte) (h : data.length ≤ 248) :
    let f := frameOf opc p1 p2 data
    ((f ++ rest).getD 0 0).toNat = 7 + data.length ∧ (f ++ rest).take (7 + data.length) = f ∧
      (f ++ rest).drop (7 + data.length) = rest ∧ validate f = true ∧ f.getD 1 0 = opc ∧ f.getD 2 0 = p1 ∧
      unle16 (f.drop 3) = p2 ∧ (f.drop 5).take data.length = data := by
  have hlen : (frameOf opc p1 p2 data).length = 7 + data.length := frameOf_length _ _ _ _
  refine ⟨?_, ?_, ?_, ?_, rfl, rfl, ?_, ?_⟩
  · simp [frameOf, frameBody, withTrailer]; omega
  · rw [← hlen, List.take_left]
  · rw [← hlen, List.drop_left]
  · exact (validate_iff _).mpr ⟨_, by simp [frameBody], rfl⟩
  · simp [frameOf, frameBody, withTrailer, le16, unle16]
    exact halves_append (n := 8) (m := 8) p2
  · simp [frameOf, frameBody, withTrailer, le16]

/-! ### What is read was written -/

theorem rdData_some {s r : List Byte} {a} (h : rdData s = some (a, r)) : s = encData a ++ r ∧ dataFits a = true := by
  simp only [rdData, Option.bind_eq_some_iff, Prod.exists] at h
  obtain ⟨x, y, h, h'⟩ := h
  obtain rfl := rd32_some h
  obtain ⟨rfl, hl⟩ := rdN_some h'
  have := x.isLt
  simp [encData, hl, dataFits]; omega

theorem rdBlock_some {s r : List Byte} {a} (h : rdBlock s = some (a, r)) : s = encBlock a ++ r ∧ shortFits a = true := by
  simp only [rdBlock, Option.bind_eq_some_iff, Prod.exists] at h
  obtain ⟨x, y, h, h'⟩ := h
  obtain rfl := rd8_some h
  obtain ⟨rfl, hl⟩ := rdN_some h'
  have := x.isLt
  simp [encBlock, hl, shortFits]; omega

theorem rdPayload_some {s r : List Byte} {a} (h : rdPayload s = some (a, r)) : s = encPayload a ++ r ∧ a.fits = true := by
  simp only [rdPayload, Option.bind_eq_some_iff, Prod.exists] at h
  obtain ⟨x, y, h, h'⟩ := h
  obtain rfl := rdBit_some h
  split at h'
  · next hx =>
    obtain ⟨⟨d, rr⟩, hb, he⟩ := Option.map_eq_some_iff.mp h'
    cases he
    obtain ⟨rfl, hf⟩ := rdBlock_some hb
    obtain rfl : x = true := hx
    exact ⟨rfl, hf⟩
  · next hx =>
    obtain ⟨⟨d, rr⟩, hb, he⟩ := Option.map_eq_some_iff.mp h'
    cases he
    obtain rfl := rd8_some hb
    obtain rfl : x = false := by simpa using hx
    exact ⟨rfl, rfl⟩

theorem rdFrame_some {s r : List Byte} {a} (h : rdFrame s = some (a, r)) :
   s = a.1 :: a.2.1 :: (le16 a.2.2.1 ++ (encPayload a.2.2.2 ++ r)) ∧ a.2.2.2.fits = true := by
  simp only [rdFrame, Option.bind_eq_some_iff, Option.map_eq_some_iff, Prod.exists] at h
  obtain ⟨x, y, h, x2, y2, h2, x3, y3, h3, x4, y4, h4, he⟩ := h
  cases he
  obtain ⟨rfl, hp⟩ := rdPayload_some h4
  obtain rfl := rd16_some h3; obtain rfl := rd8_some h2; obtain rfl := rd8_some h
  exact ⟨rfl, hp⟩

theorem rdReceive_some {s r : List Byte} {a} (h : rdReceive s = some (a, r)) :
   s = encReceive a.1 a.2.1 a.2.2.1 a.2.2.2 ++ r := by
  simp only [rdReceive, Option.bind_eq_some_iff, Option.map_eq_some_iff, Prod.exists] at h
  obtain ⟨x, y, h, x2, y2, h2, x3, y3, h3, x4, y4, h4, he⟩ := h
  cases he
  obtain rfl := rd32_some h4
  obtain rfl := rdBit_some h3; obtain rfl := rdBit_some h2; obtain rfl := rd8_some h
  rfl

/-- A frame whose count and trailer are right is built from the fields R80 places in it. -/
theorem frame_eq_frameOf {f : List Byte} {n : Nat} (hn : 7 ≤ n) (hl : f.length = n) (hc : (f.getD 0 0).toNat = n) (hv : validate f = true) :
    f = frameOf (f.getD 1 0) (f.getD 2 0) (unle16 (f.drop 3)) ((f.drop 5).take (n - 7)) := by
  obtain ⟨s, hs, rfl⟩ := (validate_iff f).mp hv
  rw [withTrailer_length] at hl
  match s, hl with
  | a :: b :: c :: d :: e :: r, hl =>
    simp only [List.length_cons] at hl
    have h1 : (List.drop 5 (withTrailer (a :: b :: c :: d :: e :: r))).take (n - 7) = r := by
      simp [withTrailer]
      rw [show n - 7 = r.length by omega, List.take_left]
    have h0 : a = BitVec.ofNat 8 (7 + r.length) := by
      apply BitVec.eq_of_toNat_eq
      have := a.isLt
      simp [withTrailer] at hc
      simp; omega
    rw [h1, frameOf, frameBody]
    congr 1
    simp only [withTrailer, List.cons_append, List.getD_cons_succ, List.getD_cons_zero, List.drop_succ_cons, List.drop_zero]
    have : le16 (unle16 (d :: e :: (r ++ le16 (crc16 (a :: b :: c :: d :: e :: r))))) = [d, e] := le16_unle16 d e
    rw [this, ← h0]; rfl
  | [], hl | [_], hl | [_, _], hl | [_, _, _], hl | [_, _, _, _], hl => simp at hl; omega

end Sys2Proof
end

