-- ==== Sys2Proof/Laws/State.lean ====
section
/-! SUPPORT. What each update of State leaves in each field: one lemma per field per update. -/

namespace Sys2Proof.Machine

/-! ### Error entry (R312) -/

@[simp] theorem errorEntry_session (e : Err) (s : State) : (errorEntry e s).session = if e.faultsSession then .faulted else s.session := rfl
@[simp] theorem errorEntry_busy (e : Err) (s : State) : (errorEntry e s).busy = false := rfl
@[simp] theorem errorEntry_err0 (e : Err) (s : State) : (errorEntry e s).err0 = e.err0 := rfl
@[simp] theorem errorEntry_err1 (e : Err) (s : State) : (errorEntry e s).err1 = e.err1 := rfl
@[simp] theorem errorEntry_err2 (e : Err) (s : State) : (errorEntry e s).err2 = e.err2 := rfl
@[simp] theorem errorEntry_result (e : Err) (s : State) : (errorEntry e s).result = if e.keepsResult then s.result else [] := rfl
@[simp] theorem errorEntry_phase (e : Err) (s : State) : (errorEntry e s).phase = .idle := rfl
@[simp] theorem errorEntry_timer (e : Err) (s : State) : (errorEntry e s).timer = 0 := rfl
@[simp] theorem errorEntry_crcReg (e : Err) (s : State) : (errorEntry e s).crcReg = s.crcReg := rfl
@[simp] theorem errorEntry_txBuf (e : Err) (s : State) : (errorEntry e s).txBuf = s.txBuf := rfl
@[simp] theorem errorEntry_rxBuf (e : Err) (s : State) : (errorEntry e s).rxBuf = s.rxBuf := rfl
@[simp] theorem errorEntry_ctxStep (e : Err) (s : State) : (errorEntry e s).ctxStep = 0 := rfl
@[simp] theorem errorEntry_acc (e : Err) (s : State) : (errorEntry e s).acc = [] := rfl
@[simp] theorem errorEntry_cfg (e : Err) (s : State) : (errorEntry e s).cfg = s.cfg := rfl
@[simp] theorem errorEntry_oracle (e : Err) (s : State) : (errorEntry e s).oracle = s.oracle := rfl
@[simp] theorem errorEntry_asked (e : Err) (s : State) : (errorEntry e s).asked = s.asked := rfl
@[simp] theorem errorEntry_requests (e : Err) (s : State) : (errorEntry e s).requests = s.requests := rfl
@[simp] theorem errorEntry_trace (e : Err) (s : State) : (errorEntry e s).trace = s.trace := rfl

/-! ### Completion (R311) -/

@[simp] theorem complete_session (r : List Byte) (s : State) : (complete r s).session = s.session := rfl
@[simp] theorem complete_busy (r : List Byte) (s : State) : (complete r s).busy = false := rfl
@[simp] theorem complete_err0 (r : List Byte) (s : State) : (complete r s).err0 = packErr0 0 0 0 := rfl
@[simp] theorem complete_err1 (r : List Byte) (s : State) : (complete r s).err1 = 0 := rfl
@[simp] theorem complete_err2 (r : List Byte) (s : State) : (complete r s).err2 = 0 := rfl
@[simp] theorem complete_result (r : List Byte) (s : State) : (complete r s).result = r := rfl
@[simp] theorem complete_phase (r : List Byte) (s : State) : (complete r s).phase = .idle := rfl
@[simp] theorem complete_timer (r : List Byte) (s : State) : (complete r s).timer = 0 := rfl
@[simp] theorem complete_crcReg (r : List Byte) (s : State) : (complete r s).crcReg = s.crcReg := rfl
@[simp] theorem complete_txBuf (r : List Byte) (s : State) : (complete r s).txBuf = s.txBuf := rfl
@[simp] theorem complete_rxBuf (r : List Byte) (s : State) : (complete r s).rxBuf = s.rxBuf := rfl
@[simp] theorem complete_ctxStep (r : List Byte) (s : State) : (complete r s).ctxStep = 0 := rfl
@[simp] theorem complete_acc (r : List Byte) (s : State) : (complete r s).acc = [] := rfl
@[simp] theorem complete_cfg (r : List Byte) (s : State) : (complete r s).cfg = s.cfg := rfl
@[simp] theorem complete_oracle (r : List Byte) (s : State) : (complete r s).oracle = s.oracle := rfl
@[simp] theorem complete_asked (r : List Byte) (s : State) : (complete r s).asked = s.asked := rfl
@[simp] theorem complete_requests (r : List Byte) (s : State) : (complete r s).requests = s.requests := rfl
@[simp] theorem complete_trace (r : List Byte) (s : State) : (complete r s).trace = s.trace := rfl

/-! ### One transaction answered (R63) -/

@[simp] theorem answered_session (s : State) : (answered s).session = s.session := rfl
@[simp] theorem answered_busy (s : State) : (answered s).busy = s.busy := rfl
@[simp] theorem answered_err0 (s : State) : (answered s).err0 = s.err0 := rfl
@[simp] theorem answered_err1 (s : State) : (answered s).err1 = s.err1 := rfl
@[simp] theorem answered_err2 (s : State) : (answered s).err2 = s.err2 := rfl
@[simp] theorem answered_result (s : State) : (answered s).result = s.result := rfl
@[simp] theorem answered_phase (s : State) : (answered s).phase = s.phase := rfl
@[simp] theorem answered_timer (s : State) : (answered s).timer = s.timer := rfl
@[simp] theorem answered_crcReg (s : State) : (answered s).crcReg = s.crcReg := rfl
@[simp] theorem answered_txBuf (s : State) : (answered s).txBuf = s.txBuf := rfl
@[simp] theorem answered_rxBuf (s : State) : (answered s).rxBuf = s.rxBuf := rfl
@[simp] theorem answered_ctxStep (s : State) : (answered s).ctxStep = s.ctxStep := rfl
@[simp] theorem answered_acc (s : State) : (answered s).acc = s.acc := rfl
@[simp] theorem answered_cfg (s : State) : (answered s).cfg = s.cfg := rfl
@[simp] theorem answered_oracle (s : State) : (answered s).oracle = s.oracle.tail := rfl
@[simp] theorem answered_asked (s : State) : (answered s).asked = s.asked + 1 := rfl
@[simp] theorem answered_requests (s : State) : (answered s).requests = s.requests := rfl
@[simp] theorem answered_trace (s : State) : (answered s).trace = s.trace := rfl

/-! ### One event recorded (R65) -/

@[simp] theorem record_session (e : Event) (s : State) : (record e s).session = s.session := rfl
@[simp] theorem record_busy (e : Event) (s : State) : (record e s).busy = s.busy := rfl
@[simp] theorem record_err0 (e : Event) (s : State) : (record e s).err0 = s.err0 := rfl
@[simp] theorem record_err1 (e : Event) (s : State) : (record e s).err1 = s.err1 := rfl
@[simp] theorem record_err2 (e : Event) (s : State) : (record e s).err2 = s.err2 := rfl
@[simp] theorem record_result (e : Event) (s : State) : (record e s).result = s.result := rfl
@[simp] theorem record_phase (e : Event) (s : State) : (record e s).phase = s.phase := rfl
@[simp] theorem record_timer (e : Event) (s : State) : (record e s).timer = s.timer := rfl
@[simp] theorem record_crcReg (e : Event) (s : State) : (record e s).crcReg = s.crcReg := rfl
@[simp] theorem record_txBuf (e : Event) (s : State) : (record e s).txBuf = s.txBuf := rfl
@[simp] theorem record_rxBuf (e : Event) (s : State) : (record e s).rxBuf = s.rxBuf := rfl
@[simp] theorem record_ctxStep (e : Event) (s : State) : (record e s).ctxStep = s.ctxStep := rfl
@[simp] theorem record_acc (e : Event) (s : State) : (record e s).acc = s.acc := rfl
@[simp] theorem record_cfg (e : Event) (s : State) : (record e s).cfg = s.cfg := rfl
@[simp] theorem record_oracle (e : Event) (s : State) : (record e s).oracle = s.oracle := rfl
@[simp] theorem record_asked (e : Event) (s : State) : (record e s).asked = s.asked := rfl
@[simp] theorem record_requests (e : Event) (s : State) : (record e s).requests = s.requests := rfl
@[simp] theorem record_trace (e : Event) (s : State) : (record e s).trace = s.trace ++ [e] := rfl

/-! ### The timer loaded (R191) -/

@[simp] theorem loadTimer_session (t : U32) (s : State) : (loadTimer t s).session = s.session := rfl
@[simp] theorem loadTimer_busy (t : U32) (s : State) : (loadTimer t s).busy = s.busy := rfl
@[simp] theorem loadTimer_err0 (t : U32) (s : State) : (loadTimer t s).err0 = s.err0 := rfl
@[simp] theorem loadTimer_err1 (t : U32) (s : State) : (loadTimer t s).err1 = s.err1 := rfl
@[simp] theorem loadTimer_err2 (t : U32) (s : State) : (loadTimer t s).err2 = s.err2 := rfl
@[simp] theorem loadTimer_result (t : U32) (s : State) : (loadTimer t s).result = s.result := rfl
@[simp] theorem loadTimer_phase (t : U32) (s : State) : (loadTimer t s).phase = .settle := rfl
@[simp] theorem loadTimer_timer (t : U32) (s : State) : (loadTimer t s).timer = t.toNat := rfl
@[simp] theorem loadTimer_crcReg (t : U32) (s : State) : (loadTimer t s).crcReg = s.crcReg := rfl
@[simp] theorem loadTimer_txBuf (t : U32) (s : State) : (loadTimer t s).txBuf = s.txBuf := rfl
@[simp] theorem loadTimer_rxBuf (t : U32) (s : State) : (loadTimer t s).rxBuf = s.rxBuf := rfl
@[simp] theorem loadTimer_ctxStep (t : U32) (s : State) : (loadTimer t s).ctxStep = s.ctxStep := rfl
@[simp] theorem loadTimer_acc (t : U32) (s : State) : (loadTimer t s).acc = s.acc := rfl
@[simp] theorem loadTimer_cfg (t : U32) (s : State) : (loadTimer t s).cfg = s.cfg := rfl
@[simp] theorem loadTimer_oracle (t : U32) (s : State) : (loadTimer t s).oracle = s.oracle := rfl
@[simp] theorem loadTimer_asked (t : U32) (s : State) : (loadTimer t s).asked = s.asked := rfl
@[simp] theorem loadTimer_requests (t : U32) (s : State) : (loadTimer t s).requests = s.requests := rfl
@[simp] theorem loadTimer_trace (t : U32) (s : State) : (loadTimer t s).trace = s.trace := rfl

/-! ### One tick (R191) -/

@[simp] theorem tick_session (s : State) : (tick s).session = s.session := rfl
@[simp] theorem tick_busy (s : State) : (tick s).busy = s.busy := rfl
@[simp] theorem tick_err0 (s : State) : (tick s).err0 = s.err0 := rfl
@[simp] theorem tick_err1 (s : State) : (tick s).err1 = s.err1 := rfl
@[simp] theorem tick_err2 (s : State) : (tick s).err2 = s.err2 := rfl
@[simp] theorem tick_result (s : State) : (tick s).result = s.result := rfl
@[simp] theorem tick_phase (s : State) : (tick s).phase = s.phase := rfl
@[simp] theorem tick_timer (s : State) : (tick s).timer = s.timer - 1 := rfl
@[simp] theorem tick_crcReg (s : State) : (tick s).crcReg = s.crcReg := rfl
@[simp] theorem tick_txBuf (s : State) : (tick s).txBuf = s.txBuf := rfl
@[simp] theorem tick_rxBuf (s : State) : (tick s).rxBuf = s.rxBuf := rfl
@[simp] theorem tick_ctxStep (s : State) : (tick s).ctxStep = s.ctxStep := rfl
@[simp] theorem tick_acc (s : State) : (tick s).acc = s.acc := rfl
@[simp] theorem tick_cfg (s : State) : (tick s).cfg = s.cfg := rfl
@[simp] theorem tick_oracle (s : State) : (tick s).oracle = s.oracle := rfl
@[simp] theorem tick_asked (s : State) : (tick s).asked = s.asked := rfl
@[simp] theorem tick_requests (s : State) : (tick s).requests = s.requests := rfl
@[simp] theorem tick_trace (s : State) : (tick s).trace = s.trace := rfl

/-! ### Wait(T) (R64) -/

@[simp] theorem wait_session (t : U32) (s : State) : (wait t s).session = s.session := rfl
@[simp] theorem wait_busy (t : U32) (s : State) : (wait t s).busy = s.busy := rfl
@[simp] theorem wait_err0 (t : U32) (s : State) : (wait t s).err0 = s.err0 := rfl
@[simp] theorem wait_err1 (t : U32) (s : State) : (wait t s).err1 = s.err1 := rfl
@[simp] theorem wait_err2 (t : U32) (s : State) : (wait t s).err2 = s.err2 := rfl
@[simp] theorem wait_result (t : U32) (s : State) : (wait t s).result = s.result := rfl
@[simp] theorem wait_phase (t : U32) (s : State) : (wait t s).phase = .settle := rfl
@[simp] theorem wait_timer (t : U32) (s : State) : (wait t s).timer = 0 := rfl
@[simp] theorem wait_crcReg (t : U32) (s : State) : (wait t s).crcReg = s.crcReg := rfl
@[simp] theorem wait_txBuf (t : U32) (s : State) : (wait t s).txBuf = s.txBuf := rfl
@[simp] theorem wait_rxBuf (t : U32) (s : State) : (wait t s).rxBuf = s.rxBuf := rfl
@[simp] theorem wait_ctxStep (t : U32) (s : State) : (wait t s).ctxStep = s.ctxStep := rfl
@[simp] theorem wait_acc (t : U32) (s : State) : (wait t s).acc = s.acc := rfl
@[simp] theorem wait_cfg (t : U32) (s : State) : (wait t s).cfg = s.cfg := rfl
@[simp] theorem wait_oracle (t : U32) (s : State) : (wait t s).oracle = s.oracle := rfl
@[simp] theorem wait_asked (t : U32) (s : State) : (wait t s).asked = s.asked := rfl
@[simp] theorem wait_requests (t : U32) (s : State) : (wait t s).requests = s.requests := rfl
@[simp] theorem wait_trace (t : U32) (s : State) : (wait t s).trace = s.trace ++ [.wait t] := rfl

/-! ### A checksum computed (R125) -/

@[simp] theorem runCrc_session (bytes : List Byte) (s : State) : (runCrc bytes s).session = s.session := rfl
@[simp] theorem runCrc_busy (bytes : List Byte) (s : State) : (runCrc bytes s).busy = s.busy := rfl
@[simp] theorem runCrc_err0 (bytes : List Byte) (s : State) : (runCrc bytes s).err0 = s.err0 := rfl
@[simp] theorem runCrc_err1 (bytes : List Byte) (s : State) : (runCrc bytes s).err1 = s.err1 := rfl
@[simp] theorem runCrc_err2 (bytes : List Byte) (s : State) : (runCrc bytes s).err2 = s.err2 := rfl
@[simp] theorem runCrc_result (bytes : List Byte) (s : State) : (runCrc bytes s).result = s.result := rfl
@[simp] theorem runCrc_phase (bytes : List Byte) (s : State) : (runCrc bytes s).phase = s.phase := rfl
@[simp] theorem runCrc_timer (bytes : List Byte) (s : State) : (runCrc bytes s).timer = s.timer := rfl
@[simp] theorem runCrc_crcReg (bytes : List Byte) (s : State) : (runCrc bytes s).crcReg = crc16 bytes := rfl
@[simp] theorem runCrc_txBuf (bytes : List Byte) (s : State) : (runCrc bytes s).txBuf = s.txBuf := rfl
@[simp] theorem runCrc_rxBuf (bytes : List Byte) (s : State) : (runCrc bytes s).rxBuf = s.rxBuf := rfl
@[simp] theorem runCrc_ctxStep (bytes : List Byte) (s : State) : (runCrc bytes s).ctxStep = s.ctxStep := rfl
@[simp] theorem runCrc_acc (bytes : List Byte) (s : State) : (runCrc bytes s).acc = s.acc := rfl
@[simp] theorem runCrc_cfg (bytes : List Byte) (s : State) : (runCrc bytes s).cfg = s.cfg := rfl
@[simp] theorem runCrc_oracle (bytes : List Byte) (s : State) : (runCrc bytes s).oracle = s.oracle := rfl
@[simp] theorem runCrc_asked (bytes : List Byte) (s : State) : (runCrc bytes s).asked = s.asked := rfl
@[simp] theorem runCrc_requests (bytes : List Byte) (s : State) : (runCrc bytes s).requests = s.requests := rfl
@[simp] theorem runCrc_trace (bytes : List Byte) (s : State) : (runCrc bytes s).trace = s.trace := rfl

/-! ### An operation accepted (R25, R35, R40) -/

@[simp] theorem accepted_session (s : State) : (accepted s).session = s.session := rfl
@[simp] theorem accepted_busy (s : State) : (accepted s).busy = true := rfl
@[simp] theorem accepted_err0 (s : State) : (accepted s).err0 = s.err0 := rfl
@[simp] theorem accepted_err1 (s : State) : (accepted s).err1 = s.err1 := rfl
@[simp] theorem accepted_err2 (s : State) : (accepted s).err2 = s.err2 := rfl
@[simp] theorem accepted_result (s : State) : (accepted s).result = s.result := rfl
@[simp] theorem accepted_phase (s : State) : (accepted s).phase = .send := rfl
@[simp] theorem accepted_timer (s : State) : (accepted s).timer = s.timer := rfl
@[simp] theorem accepted_crcReg (s : State) : (accepted s).crcReg = s.crcReg := rfl
@[simp] theorem accepted_txBuf (s : State) : (accepted s).txBuf = s.txBuf := rfl
@[simp] theorem accepted_rxBuf (s : State) : (accepted s).rxBuf = s.rxBuf := rfl
@[simp] theorem accepted_ctxStep (s : State) : (accepted s).ctxStep = 0 := rfl
@[simp] theorem accepted_acc (s : State) : (accepted s).acc = [] := rfl
@[simp] theorem accepted_cfg (s : State) : (accepted s).cfg = s.cfg := rfl
@[simp] theorem accepted_oracle (s : State) : (accepted s).oracle = s.oracle := rfl
@[simp] theorem accepted_asked (s : State) : (accepted s).asked = s.asked := rfl
@[simp] theorem accepted_requests (s : State) : (accepted s).requests = s.requests := rfl
@[simp] theorem accepted_trace (s : State) : (accepted s).trace = s.trace := rfl

/-! ### A request handed over (R22) -/

@[simp] theorem taken_session (s : State) : (taken s).session = s.session := rfl
@[simp] theorem taken_busy (s : State) : (taken s).busy = s.busy := rfl
@[simp] theorem taken_err0 (s : State) : (taken s).err0 = s.err0 := rfl
@[simp] theorem taken_err1 (s : State) : (taken s).err1 = s.err1 := rfl
@[simp] theorem taken_err2 (s : State) : (taken s).err2 = s.err2 := rfl
@[simp] theorem taken_result (s : State) : (taken s).result = s.result := rfl
@[simp] theorem taken_phase (s : State) : (taken s).phase = s.phase := rfl
@[simp] theorem taken_timer (s : State) : (taken s).timer = s.timer := rfl
@[simp] theorem taken_crcReg (s : State) : (taken s).crcReg = s.crcReg := rfl
@[simp] theorem taken_txBuf (s : State) : (taken s).txBuf = s.txBuf := rfl
@[simp] theorem taken_rxBuf (s : State) : (taken s).rxBuf = s.rxBuf := rfl
@[simp] theorem taken_ctxStep (s : State) : (taken s).ctxStep = s.ctxStep := rfl
@[simp] theorem taken_acc (s : State) : (taken s).acc = s.acc := rfl
@[simp] theorem taken_cfg (s : State) : (taken s).cfg = s.cfg := rfl
@[simp] theorem taken_oracle (s : State) : (taken s).oracle = s.oracle := rfl
@[simp] theorem taken_asked (s : State) : (taken s).asked = s.asked := rfl
@[simp] theorem taken_requests (s : State) : (taken s).requests = s.requests.tail := rfl
@[simp] theorem taken_trace (s : State) : (taken s).trace = s.trace := rfl

/-! ### The block and its parameter (R34) -/

@[simp] theorem under_toBlock (b : Block) (c : Cfg) : (b.under c).toBlock = b := rfl
@[simp] theorem under_cfg (b : Block) (c : Cfg) : (b.under c).cfg = c := rfl
@[simp] theorem toBlock_under (s : State) : s.toBlock.under s.cfg = s := rfl
@[simp] theorem reset_toBlock : State.reset.toBlock = Block.reset := rfl
@[simp] theorem reset_cfg : State.reset.cfg = Config.cfg := rfl

end Sys2Proof.Machine
end

