-- ==== Sys2Proof/Laws/Ops.lean ====
section
/-! SUPPORT. One lemma for each shared operation, saying once everything it can do. -/

namespace Sys2Proof.Machine

/-! ### Replies, the host port, the gates -/

@[simp] theorem andThen_val {α β : Type} (a : α) (s : State) (f : α → State → Reply β) :
    (Reply.val a s).andThen f = f a s := rfl

@[simp] theorem andThen_raised {α β : Type} (e : Err) (s : State) (f : α → State → Reply β) :
    (Reply.raised e s : Reply α).andThen f = .raised e s := rfl

@[simp] theorem finish_val (r : List Byte) (s : State) : (Reply.val r s).finish = complete r s := rfl

@[simp] theorem finish_raised (e : Err) (s : State) : (Reply.raised e s : Reply (List Byte)).finish = errorEntry e s := rfl

@[simp] theorem output_val (r : List Byte) (s : State) (f : List Byte → List Byte) :
    (Reply.val r s).output f = .val (f r) s := rfl

@[simp] theorem output_raised (e : Err) (s : State) (f : List Byte → List Byte) :
    (Reply.raised e s).output f = .raised e s := rfl

theorem operate_of_busy (body : State → Reply (List Byte)) {s : State} (h : s.busy = true) : operate body s = s := by
  simp [operate, h]

theorem operate_of_idle (body : State → Reply (List Byte)) {s : State} (h : s.busy = false) :
    operate body s = (body (accepted s)).finish := by
  simp [operate, h]

theorem require_eq (p : Bool) (body : State → Reply (List Byte)) (s : State) :
    require p body s = if p then body s else .raised .invalidArgument s := rfl

theorem awakeGate_eq (body : State → Reply (List Byte)) (s : State) :
    awakeGate body s = if s.session = .awake then body s else .raised .notAwake s := rfl

/-! ### Fields that completion and error entry overwrite -/

/-- s with its hidden operation state at rest. -/
def rested (s : State) : State := { s with busy := false, phase := .idle, timer := 0, ctxStep := 0, acc := [] }

theorem complete_rested (r : List Byte) (s : State) : complete r (rested s) = complete r s := rfl

theorem errorEntry_rested (e : Err) (s : State) : errorEntry e (rested s) = errorEntry e s := rfl

@[simp] theorem rested_rested (s : State) : rested (rested s) = rested s := rfl

theorem rested_accepted (s : State) : rested (accepted s) = rested s := rfl

theorem exchanged_rested (x : Exchange) (s : State) : exchanged x (rested s) = rested (exchanged x s) := rfl

theorem unparsed_rested (x : Exchange) (s : State) : unparsed x (rested s) = rested (unparsed x s) := rfl

theorem sentOnly_rested (x : Exchange) (s : State) : sentOnly x (rested s) = rested (sentOnly x s) := rfl

/-! ### The transport port -/

theorem answerOutcome_congr {s t : State} (ho : s.oracle = t.oracle) (ha : s.asked = t.asked) :
    answerOutcome s = answerOutcome t := by
  simp only [answerOutcome, ho, ha]

theorem answerBytes_congr {s t : State} (ho : s.oracle = t.oracle) (ha : s.asked = t.asked) (len : Nat) :
    answerBytes s len = answerBytes t len := by
  simp only [answerBytes, ho, ha]

@[simp] theorem answerBytes_length (s : State) (len : Nat) : (answerBytes s len).length = len := by
  simp [answerBytes]

theorem classify_eq_fatal_iff (c : Cfg) (o : XOutcome) (code : U32) :
    classify c o = .fatal code ↔ FatalWith c o code := by
  cases o with
  | ok => simp [classify]
  | err k =>
    simp only [classify, FatalWith, XOutcome.err.injEq]
    split
    · next h => exact ⟨fun h' => by simp at h', fun h' => by rcases h' with ⟨rfl, h1, h2⟩; exact absurd h (by tauto)⟩
    · next h =>
      simp only [XClass.fatal.injEq]
      exact ⟨fun h' => by subst h'; tauto, fun h' => h'.1⟩

theorem goesOn_iff (c : Cfg) (o : XOutcome) : GoesOn c o ↔ ∀ code, classify c o ≠ .fatal code := by
  cases o with
  | ok => simp [classify, GoesOn]
  | err k =>
    simp only [classify, GoesOn, reduceCtorEq, XOutcome.err.injEq, false_or]
    split <;> simp_all

/-- A send is one transaction and one event; FATAL ends it (R61, R63). -/
theorem send_eq (addr : BusAddr) (bytes : List Byte) (s : State) :
    send addr bytes s =
      let t := { later 1 s with phase := .send, trace := s.trace ++ [.send addr bytes (outcomeAt s 0)] }
      match classify s.cfg (outcomeAt s 0) with
      | .fatal code => .raised (.transport code) t
      | _ => .val () t := by
  simp only [send, later, record, answered, List.drop_one, outcomeAt, List.drop_zero, Nat.add_zero] <;>
    rfl

/-- A receive is one transaction and one event; FATAL ends it, else its bytes stand in RXBUF (R62, R162). -/
theorem recv_eq (addr : BusAddr) (len : Nat) (s : State) :
    recv addr len s =
      let t := { later 1 s with phase := .recv, trace := s.trace ++ [.recv addr len (outcomeAt s 0) (bytesAt s 0 len)] }
      match classify s.cfg (outcomeAt s 0) with
      | .fatal code => .raised (.transport code) t
      | _ => .val (bytesAt s 0 len) { t with rxBuf := bytesAt s 0 len } := by
  simp only [recv, later, record, answered, List.drop_one, outcomeAt, bytesAt, List.drop_zero, Nat.add_zero] <;>
    rfl

/-! ### The framer and the reader -/

theorem payloadAccepted_iff (c : Cfg) (pl : Payload) : payloadAccepted c.maxCmdSize pl = true ↔ PayloadTaken c pl := by
  cases pl with
  | absent n => simp [payloadAccepted, PayloadTaken]
  | present data => simp [payloadAccepted, PayloadTaken, Nat.one_le_iff_ne_zero, List.length_eq_zero_iff]

/-- Build leaves the frame in TXBUF and its checksum in CRCREG, or does nothing (R143, R144, R125). -/
theorem build_eq (opc p1 : Byte) (p2 : U16) (pl : Payload) (s : State) :
    build opc p1 p2 pl s =
      if payloadAccepted s.cfg.maxCmdSize pl then
        .val (frameOf opc p1 p2 (payloadBytes pl))
          { s with
            txBuf := frameOf opc p1 p2 (payloadBytes pl)
            crcReg := crc16 (frameBody opc p1 p2 (payloadBytes pl)) }
      else .raised .invalidArgument s := rfl

/-- The reader's checks answer what the table of R171 says, and the checksum register follows them. -/
theorem checks_eq_verdict (n : Nat) (check exact : Bool) (buf : List Byte) (s : State)
    (hl : buf.length = max 4 (n + 3)) :
    (match checkShape n exact buf with
      | .error e => Reply.raised e s
      | .ok .statusOnly => .val [] s
      | .ok (.data c) => checkTrailer check n (delimited c buf) buf s) =
    let t := if checksumReached n check exact buf then runCrc (buf.take ((buf.getD 0 0).toNat - 2)) s else s
    match verdict n check exact buf with
      | .error e => .raised e t
      | .ok p => .val p t := by
  have hd : ∀ c, c ≤ max 4 (n + 3) → covered (delimited c buf) = buf.take (c - 2) ∧
      trailer (delimited c buf) = unle16 ((buf.take c).drop (c - 2)) := by
    intro c hc
    have hlen : (buf.take c).length = c := by simp [hl, hc]
    simp only [covered, trailer, delimited, hlen, List.take_take, Nat.min_eq_left (Nat.sub_le c 2), and_self]
  obtain ⟨c, hc⟩ : ∃ c, (buf.getD 0 0).toNat = c := ⟨_, rfl⟩
  simp only [checkShape, verdict, checksumReached, readLength, Config.stSuccess, hc]
  by_cases h1 : c < 4
  · simp [h1, -List.getD_eq_getElem?_getD]
  by_cases h2 : max 4 (n + 3) < c
  · simp only [h1, h2, if_true, if_false, Bool.and_false, Bool.false_eq_true]
  by_cases h3 : c = 4
  · subst h3
    by_cases h4 : buf.getD 1 0#8 = 0#8 <;> by_cases h5 : 0 < n <;> simp [h2, h4, h5, -List.getD_eq_getElem?_getD]
    rw [if_pos (by omega)]
  obtain ⟨hcov, htr⟩ := hd c (by omega)
  have h4 : 4 < c := by omega
  by_cases h5 : exact = true ∧ c ≠ n + 3
  · simp [h1, h2, h3, h4, h5, -List.getD_eq_getElem?_getD]
  by_cases h6 : c - 3 < n
  · simp [h1, h2, h3, h4, h5, h6, -List.getD_eq_getElem?_getD]
  cases check <;>
    simp [checkTrailer, responsePayload, h1, h2, h3, h4, h5, h6, hcov, htr, -List.getD_eq_getElem?_getD]
  split <;> rfl

/-- s after a receive of len bytes from BUS_ADDR (R62). -/
def received (len : Nat) (s : State) : State :=
  { later 1 s with
    phase := .recv, trace := s.trace ++ [.recv s.cfg.busAddr len (outcomeAt s 0) (bytesAt s 0 len)] }

/-- s after a receive whose bytes the reader parses (R162, R168). -/
def parsed (n : Nat) (check exact : Bool) (s : State) : State :=
  let buf := bytesAt s 0 (max 4 (n + 3))
  { received (max 4 (n + 3)) s with
    rxBuf := buf
    crcReg := if checksumReached n check exact buf then crc16 (buf.take ((buf.getD 0 0).toNat - 2)) else s.crcReg }

/-- The reader: one transaction, then the table of R171 on its bytes (R160-R170). -/
theorem receive_eq (n : Nat) (check exact : Bool) (s : State) :
    receive n check exact s =
      match classify s.cfg (outcomeAt s 0) with
      | .fatal code => .raised (.transport code) (received (max 4 (n + 3)) s)
      | _ =>
        match verdict n check exact (bytesAt s 0 (max 4 (n + 3))) with
        | .error e => .raised e (parsed n check exact s)
        | .ok p => .val p (parsed n check exact s) := by
  obtain ⟨buf, hbuf⟩ : ∃ buf, bytesAt s 0 (max 4 (n + 3)) = buf := ⟨_, rfl⟩
  have hl : buf.length = max 4 (n + 3) := by rw [← hbuf]; exact answerBytes_length _ _
  have hp : ∀ r : State, r = { received (max 4 (n + 3)) s with rxBuf := buf } →
      (if checksumReached n check exact buf then runCrc (buf.take ((buf.getD 0 0).toNat - 2)) r else r) =
        parsed n check exact s := by
    rintro r rfl
    simp only [parsed, hbuf]
    split <;> rfl
  rw [receive, recv_eq, readLength]
  simp only [hbuf]
  have := checks_eq_verdict n check exact buf { received (max 4 (n + 3)) s with rxBuf := buf } hl
  simp only [hp _ rfl] at this
  simp only [received, hbuf] at this ⊢
  cases classify s.cfg (outcomeAt s 0) with
  | fatal code => rfl
  | ok => exact this
  | tolerated => exact this

/-! ### The exchange, the plan, the dispatcher -/

/-- The hidden state in the middle of an exchange. -/
def during (p : Phase) (steps : Nat) (s : State) : State := { s with phase := p, timer := 0, ctxStep := steps }

/-- s after the framer has built the frame of x (R143, R125). -/
def framed (x : Exchange) (s : State) : State :=
  { s with txBuf := exchangeFrame x, crcReg := crc16 (frameBody x.opc x.p1 x.p2 (payloadBytes x.pl)) }

theorem build_of_taken {x : Exchange} {s : State} (h : PayloadTaken s.cfg x.pl) :
    build x.opc x.p1 x.p2 x.pl s = .val (exchangeFrame x) (framed x s) := by
  rw [build_eq, if_pos ((payloadAccepted_iff _ _).mpr h)]; rfl

theorem build_of_not_taken {opc p1 : Byte} {p2 : U16} {pl : Payload} {s : State} (h : ¬PayloadTaken s.cfg pl) :
    build opc p1 p2 pl s = .raised .invalidArgument s := by
  rw [build_eq, if_neg (mt (payloadAccepted_iff _ _).mp h)]

theorem send_of_fatal {addr : BusAddr} {bytes : List Byte} {s : State} {code : U32}
    (h : classify s.cfg (outcomeAt s 0) = .fatal code) :
    send addr bytes s = .raised (.transport code)
      { later 1 s with phase := .send, trace := s.trace ++ [.send addr bytes (outcomeAt s 0)] } := by
  rw [send_eq]; simp only [h]

theorem send_of_goesOn {addr : BusAddr} {bytes : List Byte} {s : State}
    (h : ∀ code, classify s.cfg (outcomeAt s 0) ≠ .fatal code) :
    send addr bytes s = .val ()
      { later 1 s with phase := .send, trace := s.trace ++ [.send addr bytes (outcomeAt s 0)] } := by
  rw [send_eq]
  cases hc : classify s.cfg (outcomeAt s 0) with
  | fatal code => exact absurd hc (h code)
  | ok => rfl
  | tolerated => rfl

/-- What follows the send of an exchange begun in s. -/
theorem exchange_tail (x : Exchange) (s : State) :
    ((receive x.expect x.check x.exact (wait x.delay { later 1 s with
        phase := .send
        txBuf := exchangeFrame x
        crcReg := crc16 (frameBody x.opc x.p1 x.p2 (payloadBytes x.pl))
        trace := s.trace ++ [sendEvent x s] })).andThen fun p s => .val p { s with ctxStep := s.ctxStep + 1 }) =
      match classify s.cfg (outcomeAt s 1) with
      | .fatal code => .raised (.transport code) (during .recv s.ctxStep (unparsed x s))
      | _ =>
        match verdict x.expect x.check x.exact (exchangeBytes x s) with
        | .error e => .raised e (during .recv s.ctxStep (exchanged x s))
        | .ok p => .val p (during .recv (s.ctxStep + 1) (exchanged x s)) := by
  obtain ⟨t, ht⟩ : ∃ t, t = wait x.delay { later 1 s with
      phase := .send
      txBuf := exchangeFrame x
      crcReg := crc16 (frameBody x.opc x.p1 x.p2 (payloadBytes x.pl))
      trace := s.trace ++ [sendEvent x s] } := ⟨_, rfl⟩
  have ho : outcomeAt t 0 = outcomeAt s 1 := by subst ht; rfl
  have hb : bytesAt t 0 (max 4 (x.expect + 3)) = exchangeBytes x s := by subst ht; rfl
  have hr : received (max 4 (x.expect + 3)) t = during .recv s.ctxStep (unparsed x s) := by
    rw [received, ho, hb]
    subst ht
    simp [during, unparsed, later, recvEvent, wait, record, loadTimer]
  have hp : parsed x.expect x.check x.exact t = during .recv s.ctxStep (exchanged x s) := by
    simp only [parsed, hb, hr, exchanged]
    subst ht
    rfl
  have hc : t.cfg = s.cfg := by subst ht; rfl
  rw [← ht, receive_eq, ho, hb, hc, hr, hp]
  cases classify s.cfg (outcomeAt s 1) with
  | fatal code => rfl
  | ok => dsimp only; cases verdict x.expect x.check x.exact (exchangeBytes x s) <;> rfl
  | tolerated => dsimp only; cases verdict x.expect x.check x.exact (exchangeBytes x s) <;> rfl

/-- The exchange: everything it can do (R221). -/
theorem exchange_eq (x : Exchange) (s : State) (h : PayloadTaken s.cfg x.pl) :
    exchange x s =
      match classify s.cfg (outcomeAt s 0) with
      | .fatal code => .raised (.transport code) { sentOnly x s with phase := .send }
      | _ =>
        match classify s.cfg (outcomeAt s 1) with
        | .fatal code => .raised (.transport code) (during .recv s.ctxStep (unparsed x s))
        | _ =>
          match verdict x.expect x.check x.exact (exchangeBytes x s) with
          | .error e => .raised e (during .recv s.ctxStep (exchanged x s))
          | .ok p => .val p (during .recv (s.ctxStep + 1) (exchanged x s)) := by
  rw [exchange, build_of_taken h, andThen_val]
  match hc : classify s.cfg (outcomeAt s 0) with
  | .fatal code => rw [send_of_fatal (s := framed x s) hc]; rfl
  | .ok => rw [send_of_goesOn (s := framed x s) (fun _ h => nomatch hc.symm.trans h), andThen_val]; exact exchange_tail x s
  | .tolerated => rw [send_of_goesOn (s := framed x s) (fun _ h => nomatch hc.symm.trans h), andThen_val]; exact exchange_tail x s

/-- What completion or error entry leaves does not depend on the hidden operation state. -/
abbrev RestedAlike (k : List Byte → State → Reply (List Byte)) : Prop :=
  ∀ p t, (k p t).finish = (k p (rested t)).finish

/-- What a plan leaves does not depend on the hidden operation state it begins in. -/
theorem afterPlan_rested (done : List Byte → State → State) (hd : ∀ p t, done p (rested t) = done p t)
    (xs : List Exchange) (gathered : List Byte) (s : State) :
    afterPlan done xs gathered (rested s) = afterPlan done xs gathered s := by
  induction xs generalizing gathered s with
  | nil => exact hd _ _
  | cons x xs ih =>
    simp only [afterPlan, exchanged_rested, ih]
    rfl

/-- A plan whose every exchange the oracle answers is run to the assembly of its output. -/
theorem afterPlan_of_answers (done : List Byte → State → State) (xs : List Exchange) (ps : List (List Byte))
    (gathered : List Byte) (s : State) (h : Answers s xs ps) :
    afterPlan done xs gathered s = done (gathered ++ ps.flatten) (exchangedAll xs s) := by
  induction xs generalizing ps gathered s with
  | nil => cases ps with
    | nil => simp [afterPlan, exchangedAll]
    | cons => exact h.elim
  | cons x xs ih => cases ps with
    | nil => exact h.elim
    | cons p ps =>
      obtain ⟨h0, h1, hv, hrest⟩ := h
      rw [goesOn_iff] at h0 h1
      have := ih ps (gathered ++ p) (exchanged x s) hrest
      simp only [afterPlan, hv, this, List.flatten_cons, List.append_assoc, exchangedAll, List.foldl_cons]

/-- What the reader accepts has exactly the length asked for (R160, R169). -/
theorem verdict_length {n : Nat} {check exact : Bool} {buf p : List Byte} (hl : buf.length = max 4 (n + 3))
    (h : verdict n check exact buf = .ok p) : p.length = n := by
  simp only [verdict] at h
  split at h <;> try cases h
  split at h <;> try cases h
  split at h <;> try cases h
  split at h <;> try cases h
  split at h
  · next hc => cases h; exact hc.2.2.symm
  split at h <;> try cases h
  split at h <;> try cases h
  split at h <;> cases h
  simp
  omega

theorem exchangeBytes_length (x : Exchange) (s : State) : (exchangeBytes x s).length = max 4 (x.expect + 3) :=
  answerBytes_length _ _

/-- The plan of a composite operation, run to its end: the first failing exchange ends it, else k assembles the output
of all (R240). -/
theorem gather_finish (k : List Byte → State → Reply (List Byte)) (hk : RestedAlike k) (xs : List Exchange) (s : State)
    (h : ∀ x ∈ xs, PayloadTaken s.cfg x.pl) :
    ((gather xs s).andThen k).finish = afterPlan (fun p t => (k p t).finish) xs s.acc (rested s) := by
  induction xs generalizing s with
  | nil => exact hk _ _
  | cons x xs ih =>
    rw [gather, exchange_eq x s (h x (by simp)), afterPlan, show (rested s).cfg = s.cfg from rfl,
      show outcomeAt (rested s) 0 = outcomeAt s 0 from rfl, show outcomeAt (rested s) 1 = outcomeAt s 1 from rfl,
      show exchangeBytes x (rested s) = exchangeBytes x s from rfl]
    have tail :
        (((match classify s.cfg (outcomeAt s 1) with
          | .fatal code => .raised (.transport code) (during .recv s.ctxStep (unparsed x s))
          | _ =>
            match verdict x.expect x.check x.exact (exchangeBytes x s) with
            | .error e => .raised e (during .recv s.ctxStep (exchanged x s))
            | .ok p => .val p (during .recv (s.ctxStep + 1) (exchanged x s)) : Reply (List Byte)).andThen
              fun p s => gather xs { s with acc := s.acc ++ p }).andThen k).finish =
        match classify s.cfg (outcomeAt s 1) with
        | .fatal code => errorEntry (.transport code) (unparsed x (rested s))
        | _ =>
          match verdict x.expect x.check x.exact (exchangeBytes x s) with
          | .error e => errorEntry e (exchanged x (rested s))
          | .ok p => afterPlan (fun p t => (k p t).finish) xs (s.acc ++ p) (exchanged x (rested s)) := by
      have step : ∀ p, ((gather xs { during .recv (s.ctxStep + 1) (exchanged x s) with acc := s.acc ++ p }).andThen k).finish =
          afterPlan (fun p t => (k p t).finish) xs (s.acc ++ p) (exchanged x (rested s)) := fun p =>
        ih _ fun y hy => h y (by simp [hy])
      cases classify s.cfg (outcomeAt s 1) with
      | fatal code => rfl
      | ok => dsimp only; cases verdict x.expect x.check x.exact (exchangeBytes x s) with
        | error e => rfl
        | ok p => exact step p
      | tolerated => dsimp only; cases verdict x.expect x.check x.exact (exchangeBytes x s) with
        | error e => rfl
        | ok p => exact step p
    cases classify s.cfg (outcomeAt s 0) with
    | fatal code => rfl
    | ok => exact tail
    | tolerated => exact tail

/-- One exchange, run to its end (R221). -/
theorem exchange_finish (k : List Byte → State → Reply (List Byte)) (hk : RestedAlike k) (x : Exchange) (s : State)
    (h : PayloadTaken s.cfg x.pl) :
    ((exchange x s).andThen k).finish = afterPlan (fun p t => (k p t).finish) [x] [] (rested s) := by
  rw [exchange_eq x s h]
  simp only [afterPlan, List.nil_append, show (rested s).cfg = s.cfg from rfl,
    show outcomeAt (rested s) 0 = outcomeAt s 0 from rfl, show outcomeAt (rested s) 1 = outcomeAt s 1 from rfl,
    show exchangeBytes x (rested s) = exchangeBytes x s from rfl]
  cases classify s.cfg (outcomeAt s 0) with
  | fatal code => rfl
  | ok | tolerated =>
    cases classify s.cfg (outcomeAt s 1) with
    | fatal code => rfl
    | ok | tolerated =>
      dsimp only
      cases verdict x.expect x.check x.exact (exchangeBytes x s) with
      | error e => rfl
      | ok p => exact hk _ _

/-- An exchange builds its frame itself, so a frame built before it leaves no trace in what it does. -/
theorem afterPlan_framed (x : Exchange) (s : State) :
    afterPlan complete [x] [] (rested (framed x s)) = afterPlan complete [x] [] (rested s) := rfl

/-- The raw dispatcher (R222): the framer's check, the Awake gate, one exchange. -/
theorem dispatch_finish (x : Exchange) (s : State) :
    (dispatch x s).finish =
      if payloadAccepted s.cfg.maxCmdSize x.pl then
        if s.session = .awake then afterPlan complete [x] [] (rested s) else errorEntry .notAwake (framed x s)
      else errorEntry .invalidArgument s := by
  by_cases hp : payloadAccepted s.cfg.maxCmdSize x.pl = true
  · have h := (payloadAccepted_iff _ _).mp hp
    rw [dispatch, build_of_taken h, andThen_val, awakeGate_eq, if_pos hp]
    split
    · next hs =>
      have := exchange_finish (fun p t => .val p t) (fun _ _ => rfl) x (framed x s) h
      rw [show ((exchange x (framed x s)).andThen fun p t => .val p t) = exchange x (framed x s) by
        cases exchange x (framed x s) <;> rfl] at this
      rw [if_pos (show s.session = .awake from hs), this]
      exact afterPlan_framed x s
    · next hs => rw [if_neg (show ¬s.session = .awake from hs)]; rfl
  · rw [dispatch, build_of_not_taken (mt (payloadAccepted_iff _ _).mpr hp), if_neg hp]; rfl

end Sys2Proof.Machine
end

