-- ==== Sys2Proof/Laws/PerInstr.lean ====
section
/-! SUPPORT. A family stated of every instruction as syntax: its encoding carries its code where the decoder looks for it. -/

namespace Sys2Proof.Laws.codeByte

open Machine

/-- The code of an instruction: HOP (R99), OPCODE (R92, R97), or the token (R89, R90). -/
def code (c : Cfg) : Instr → Byte
  | .crcCompute _ => 0x01
  | .crcValidate _ => 0x02
  | .frameBuild _ _ _ _ => 0x03
  | .wake => 0x10
  | .sleep => 0x11
  | .transact _ _ _ _ _ _ _ _ => 0x20
  | .readWord _ _ => 0x30
  | .readSerial => 0x31
  | .readConfigZone => 0x32
  | .readLockStatus => 0x33
  | .random _ => 0x40
  | .randomRange _ _ => 0x41
  | .hash _ => 0x50
  | .aesEncrypt _ _ => 0x60
  | .aesDecrypt _ _ => 0x61
  | .cmdRead _ _ => c.opRead
  | .cmdWrite _ _ _ _ _ _ _ => c.opWrite
  | .cmdRandom => c.opRandom
  | .cmdShaStart => c.opSha
  | .cmdShaUpdate _ => c.opSha
  | .cmdShaEnd _ => c.opSha
  | .cmdAesEnc _ _ => c.opAes
  | .cmdAesDec _ _ => c.opAes
  | .tokenWake => Config.wakeToken
  | .tokenSleep => c.sleepToken

/-- Where the decoder looks for the code: byte 0 of a descriptor or a token, byte 1 of a frame (R80, R98). -/
def place : Instr → Nat
  | .crcCompute _ => 0
  | .crcValidate _ => 0
  | .frameBuild _ _ _ _ => 0
  | .wake => 0
  | .sleep => 0
  | .transact _ _ _ _ _ _ _ _ => 0
  | .readWord _ _ => 0
  | .readSerial => 0
  | .readConfigZone => 0
  | .readLockStatus => 0
  | .random _ => 0
  | .randomRange _ _ => 0
  | .hash _ => 0
  | .aesEncrypt _ _ => 0
  | .aesDecrypt _ _ => 0
  | .cmdRead _ _ => 1
  | .cmdWrite _ _ _ _ _ _ _ => 1
  | .cmdRandom => 1
  | .cmdShaStart => 1
  | .cmdShaUpdate _ => 1
  | .cmdShaEnd _ => 1
  | .cmdAesEnc _ _ => 1
  | .cmdAesDec _ _ => 1
  | .tokenWake => 0
  | .tokenSleep => 0

/-- The bytes of a request. -/
def bytesOf : Request → List Byte
  | .descriptor bytes => bytes
  | .wire bytes => bytes

/-- In every block, the bytes an instruction is written as hold its code in its place. -/
def Statement (i : Instr) : Prop := ∀ c : Cfg, (bytesOf (encode c i))[place i]? = some (code c i)

theorem crcCompute (data : List Byte) : Statement (.crcCompute data) := fun _ => rfl
theorem crcValidate (data : List Byte) : Statement (.crcValidate data) := fun _ => rfl
theorem frameBuild (opc p1 : Byte) (p2 : U16) (pl : Payload) : Statement (.frameBuild opc p1 p2 pl) := fun _ => rfl
theorem wake : Statement .wake := fun _ => rfl
theorem sleep : Statement .sleep := fun _ => rfl
theorem transact (opc p1 : Byte) (p2 : U16) (pl : Payload) (n : Byte) (chk ex : Bool) (dly : U32) : Statement (.transact opc p1 p2 pl n chk ex dly) := fun _ => rfl
theorem readWord (zsel : BitVec 2) (addr : U16) : Statement (.readWord zsel addr) := fun _ => rfl
theorem readSerial : Statement .readSerial := fun _ => rfl
theorem readConfigZone : Statement .readConfigZone := fun _ => rfl
theorem readLockStatus : Statement .readLockStatus := fun _ => rfl
theorem random (k : Byte) : Statement (.random k) := fun _ => rfl
theorem randomRange (lo hi : U64) : Statement (.randomRange lo hi) := fun _ => rfl
theorem hash (data : List Byte) : Statement (.hash data) := fun _ => rfl
theorem aesEncrypt (slot : U16) (blk : List Byte) : Statement (.aesEncrypt slot blk) := fun _ => rfl
theorem aesDecrypt (slot : U16) (blk : List Byte) : Statement (.aesDecrypt slot blk) := fun _ => rfl
theorem cmdRead (zone : Byte) (addr : U16) : Statement (.cmdRead zone addr) := fun _ => rfl
theorem cmdWrite (p1 : Byte) (p2 : U16) (pl : Payload) (n : Byte) (chk ex : Bool) (dly : U32) : Statement (.cmdWrite p1 p2 pl n chk ex dly) := fun _ => rfl
theorem cmdRandom : Statement .cmdRandom := fun _ => rfl
theorem cmdShaStart : Statement .cmdShaStart := fun _ => rfl
theorem cmdShaUpdate (chunk : List Byte) : Statement (.cmdShaUpdate chunk) := fun _ => rfl
theorem cmdShaEnd (tail : List Byte) : Statement (.cmdShaEnd tail) := fun _ => rfl
theorem cmdAesEnc (slot : U16) (blk : List Byte) : Statement (.cmdAesEnc slot blk) := fun _ => rfl
theorem cmdAesDec (slot : U16) (blk : List Byte) : Statement (.cmdAesDec slot blk) := fun _ => rfl
theorem tokenWake : Statement .tokenWake := fun _ => rfl
theorem tokenSleep : Statement .tokenSleep := fun _ => rfl

end Sys2Proof.Laws.codeByte
end

