-- ==== Sys2Proof/Tests/Slice0.lean ====
section
/-! SUPPORT. The model's own tests. Expected values are those of spec/95_test_vectors.md (its sections are cited), or worked
out by hand from the cited rule. The `test_witness_` theorems show that the hypotheses of each statement can be met. -/

namespace Sys2Proof.Tests

-- Theorems by evaluation, checked one after another: side by side they take a thread each.
set_option Elab.async false

open Machine

/-! ### Small states -/

/-- The block after reset with the reference configuration. -/
def asleep : State := { State.reset with cfg := Config.cfgRef }

/-- An awake block whose next transactions are answered by the script. -/
def awake (script : List Answer) : State := { asleep with session := .awake, oracle := script }

/-- One exchange answered OK with these response bytes. -/
def replied (bytes : List Byte) : List Answer := [⟨.ok, []⟩, ⟨.ok, bytes⟩]

/-- The state after, where there is one. -/
def after (o : Host.Outcome State Fault Refusal) : State :=
  match o with
  | .next t => t
  | .fault _ => State.reset
  | .refused _ => State.reset

/-- What the host reads after an operation: SESSION, ERR0, RESULT. -/
def seen (o : Host.Outcome State Fault Refusal) : Session × U32 × List Byte :=
  ((after o).session, (after o).err0, (after o).result)

/-- Every exchange of the plan is answered and accepted, as a test of equality. -/
def answersB (s : State) : List Exchange → List (List Byte) → Bool
  | [], [] => true
  | x :: xs, p :: ps =>
    decide (GoesOn s.cfg (outcomeAt s 0)) && decide (GoesOn s.cfg (outcomeAt s 1)) &&
      (match verdict x.expect x.check x.exact (exchangeBytes x s) with
        | .ok q => q == p
        | .error _ => false) &&
      answersB (exchanged x s) xs ps
  | _, _ => false

theorem answers_of (s : State) (xs : List Exchange) (ps : List (List Byte)) (h : answersB s xs ps = true) :
    Answers s xs ps := by
  induction xs generalizing s ps with
  | nil => cases ps <;> simp_all [answersB, Answers]
  | cons x xs ih =>
    cases ps with
    | nil => simp [answersB] at h
    | cons p ps =>
      simp only [answersB, Bool.and_eq_true, decide_eq_true_eq] at h
      obtain ⟨⟨⟨h0, h1⟩, h2⟩, h3⟩ := h
      refine ⟨h0, h1, ?_, ih _ _ h3⟩
      split at h2
      · next q hq => rw [hq, eq_of_beq h2]
      · cases h2

/-! ### WellFormed refuses -/

/-- A payload of 2^32 bytes. -/
theorem test_wf_data (data : List Byte) (h : data.length = 2 ^ 32) :
    wellFormed (.crcCompute data) = false ∧ wellFormed (.crcValidate data) = false ∧ wellFormed (.hash data) = false := by
  simp [wellFormed, dataFits, h]

theorem test_wf_data_term : wellFormed (.hash (List.replicate (2 ^ 32) 0)) = false :=
  (test_wf_data _ List.length_replicate).2.2

theorem test_wf_frameBuild_payload : wellFormed (.frameBuild 0 0 0 (.present (List.replicate 256 0))) = false := by decide +kernel
theorem test_wf_transact_payload : wellFormed (.transact 0 0 0 (.present (List.replicate 256 0)) 0 true false 0) = false := by decide +kernel
theorem test_wf_aesEncrypt_block : wellFormed (.aesEncrypt 0 (List.replicate 256 0)) = false := by decide +kernel
theorem test_wf_aesDecrypt_block : wellFormed (.aesDecrypt 0 (List.replicate 256 0)) = false := by decide +kernel
theorem test_wf_cmdWrite_absent : wellFormed (.cmdWrite 0 0 (.absent 1) 0 true false 0) = false := by decide +kernel
theorem test_wf_cmdWrite_empty : wellFormed (.cmdWrite 0 0 (.present []) 0 true false 0) = false := by decide +kernel
theorem test_wf_cmdWrite_long : wellFormed (.cmdWrite 0 0 (.present (List.replicate 249 0)) 0 true false 0) = false := by decide +kernel
theorem test_wf_cmdShaUpdate_chunk : wellFormed (.cmdShaUpdate (List.replicate 63 0)) = false := by decide +kernel
theorem test_wf_cmdShaEnd_tail : wellFormed (.cmdShaEnd (List.replicate 64 0)) = false := by decide +kernel
theorem test_wf_cmdAesEnc_block : wellFormed (.cmdAesEnc 0 (List.replicate 15 0)) = false := by decide +kernel
theorem test_wf_cmdAesDec_block : wellFormed (.cmdAesDec 0 (List.replicate 17 0)) = false := by decide +kernel

/-! ### Decoding of words written out from the encodings (R80-R99; the bytes of CFG_REF, R5) -/

/-- What the reference block reads. -/
def read (r : Request) : Decoded := decode Config.cfgRef r

/-- The worked example of 95_test_vectors.md, section 1.7. -/
def plaintext : List Byte :=
  [0x48, 0x65, 0x6C, 0x6C, 0x6F, 0x2C, 0x20, 0x41, 0x45, 0x53, 0x21, 0x00, 0x00, 0x00, 0x00, 0x00]

/-- The worked example of 95_test_vectors.md, section 1.7. -/
def ciphertext : List Byte :=
  [0x07, 0x96, 0x94, 0xA6, 0x9E, 0xA6, 0x57, 0xE8, 0x43, 0xD9, 0x4A, 0x60, 0x34, 0xD3, 0x38, 0x15]

/-- The first chunk of program P2 of 95_test_vectors.md: bytes 0 to 63. -/
def chunk : List Byte := (List.range 64).map (BitVec.ofNat 8)

theorem test_decode_crcCompute :
    read (.descriptor [0x01, 0x05, 0x00, 0x00, 0x00, 0x07, 0x00, 0x00, 0x00, 0x00]) =
      .instr (.crcCompute [0x07, 0x00, 0x00, 0x00, 0x00]) := by decide +kernel
theorem test_decode_crcValidate :
    read (.descriptor [0x02, 0x03, 0x00, 0x00, 0x00, 0x07, 0x03, 0xAD]) =
      .instr (.crcValidate [0x07, 0x03, 0xAD]) := by decide +kernel
theorem test_decode_frameBuild :
    read (.descriptor [0x03, 0x47, 0x02, 0x34, 0x12, 0x01, 0x02, 0x80, 0x81]) =
      .instr (.frameBuild 0x47 0x02 0x1234 (.present [0x80, 0x81])) := by decide +kernel
theorem test_decode_wake : read (.descriptor [0x10]) = .instr .wake := by decide +kernel
theorem test_decode_sleep : read (.descriptor [0x11]) = .instr .sleep := by decide +kernel
theorem test_decode_transact :
    read (.descriptor [0x20, 0x02, 0x01, 0x34, 0x12, 0x00, 0x03, 0xFC, 0x01, 0x00, 0x78, 0x56, 0x34, 0x12]) =
      .instr (.transact 0x02 0x01 0x1234 (.absent 3) 252 true false 0x12345678) := by decide +kernel
theorem test_decode_readWord : read (.descriptor [0x30, 0x03, 0x15, 0x80]) = .instr (.readWord 3 0x8015) := by decide +kernel
theorem test_decode_readSerial : read (.descriptor [0x31]) = .instr .readSerial := by decide +kernel
theorem test_decode_readConfigZone : read (.descriptor [0x32]) = .instr .readConfigZone := by decide +kernel
theorem test_decode_readLockStatus : read (.descriptor [0x33]) = .instr .readLockStatus := by decide +kernel
theorem test_decode_random : read (.descriptor [0x40, 0x20]) = .instr (.random 32) := by decide +kernel
theorem test_decode_randomRange :
    read (.descriptor [0x41, 0x08, 0x07, 0x06, 0x05, 0x04, 0x03, 0x02, 0x01, 0x80, 0x00, 0x00, 0x00, 0x00, 0x00, 0x00, 0xF0]) =
      .instr (.randomRange 0x0102030405060708 0xF000000000000080) := by decide +kernel
theorem test_decode_hash : read (.descriptor [0x50, 0x01, 0x00, 0x00, 0x00, 0xAB]) = .instr (.hash [0xAB]) := by decide +kernel
theorem test_decode_aesEncrypt :
    read (.descriptor [0x60, 0x34, 0x12, 0x02, 0xAA, 0xBB]) =
      .instr (.aesEncrypt 0x1234 [0xAA, 0xBB]) := by decide +kernel
theorem test_decode_aesDecrypt :
    read (.descriptor [0x61, 0x34, 0x12, 0x01, 0xAA]) =
      .instr (.aesDecrypt 0x1234 [0xAA]) := by decide +kernel
theorem test_decode_cmdRead :
    read (.wire [0x07, 0x02, 0x00, 0x15, 0x00, 0x17, 0x5D]) =
      .instr (.cmdRead 0x00 0x0015) := by decide +kernel
theorem test_decode_cmdWrite :
    read (.wire [0x08, 0x12, 0x00, 0x00, 0x00, 0xAB, 0x2F, 0x1F, 0x04, 0x01, 0x00, 0x0A, 0x00, 0x00, 0x00]) =
      .instr (.cmdWrite 0x00 0x0000 (.present [0xAB]) 4 true false 10) := by decide +kernel
theorem test_decode_cmdRandom : read (.wire [0x07, 0x1B, 0x00, 0x00, 0x00, 0x24, 0xCD]) = .instr .cmdRandom := by decide +kernel
theorem test_decode_cmdShaStart :
    read (.wire [0x07, 0x47, 0x00, 0x00, 0x00, 0x2E, 0x85]) =
      .instr .cmdShaStart := by decide +kernel
theorem test_decode_cmdShaEnd :
    read (.wire [0x09, 0x47, 0x02, 0x02, 0x00, 0x80, 0x81, 0xF5, 0xF2]) =
      .instr (.cmdShaEnd [0x80, 0x81]) := by decide +kernel
theorem test_decode_cmdAesEnc :
    read (.wire [0x17, 0x51, 0x00, 0x00, 0x00, 0x48, 0x65, 0x6C, 0x6C, 0x6F, 0x2C, 0x20, 0x41, 0x45, 0x53, 0x21, 0x00, 0x00, 0x00, 0x00, 0x00, 0x0C, 0x66]) =
      .instr (.cmdAesEnc 0 plaintext) := by decide +kernel
theorem test_decode_cmdAesDec :
    read (.wire [0x17, 0x51, 0x01, 0x00, 0x00, 0x07, 0x96, 0x94, 0xA6, 0x9E, 0xA6, 0x57, 0xE8, 0x43, 0xD9, 0x4A, 0x60, 0x34, 0xD3, 0x38, 0x15, 0xEC, 0xA6]) =
      .instr (.cmdAesDec 0 ciphertext) := by decide +kernel
theorem test_decode_tokenWake : read (.wire [0x00]) = .instr .tokenWake := by decide +kernel
theorem test_decode_tokenSleep : read (.wire [0x01]) = .instr .tokenSleep := by decide +kernel
theorem test_decode_cmdShaUpdate :
    read (.wire ([0x47, 0x47, 0x01, 0x00, 0x00] ++ chunk ++ [0xB1, 0xFB])) = .instr (.cmdShaUpdate chunk) := by decide +kernel

/-- Bytes that are no instruction are refused by name: a truncated and an overlong descriptor, a 2-bit and a 1-bit field out of
range (R102), a wrong count, a byte-swapped trailer, an opcode of no row (R81, R83, R97). -/
theorem test_decode_rejects :
    read (.descriptor []) = .rejected .emptyRecord ∧
    read (.descriptor [0x40]) = .rejected .malformedDescriptor ∧
    read (.descriptor [0x10, 0x00]) = .rejected .trailingBytes ∧
    read (.descriptor [0x30, 0x04, 0x00, 0x00]) = .rejected .malformedDescriptor ∧
    read (.descriptor [0x03, 0x00, 0x00, 0x00, 0x00, 0x02, 0x00]) = .rejected .malformedDescriptor ∧
    read (.descriptor [0x34]) = .unassigned 0x34 ∧
    read (.wire [0x02]) = .rejected .unknownToken ∧
    read (.wire [0x08, 0x02, 0x00, 0x15, 0x00, 0x17, 0x5D]) = .rejected .frameCount ∧
    read (.wire [0x07, 0x02, 0x00, 0x15, 0x00, 0x5D, 0x17]) = .rejected .frameChecksum ∧
    read (.wire [0x07, 0x00, 0x00, 0x00, 0x00, 0x03, 0xAD]) = .rejected .unknownCommand := by decide +kernel

/-- R104: lines of section 3 and the corner cases its rule lists. -/
theorem test_assemble :
    assemble "WAKE\nREAD_WORD otp, 0xFFFF\nHASH []\nFRAME_BUILD 0x00, 0x00, 0x0000, none(5)\n".toList =
      some [.wake, .readWord 1 0xFFFF, .hash [], .frameBuild 0 0 0 (.absent 5)] ∧
    assembleLine "TRANSACT 0x02, 0x00, 0x0000, none, 4, 1, 0, 10".toList =
      some (.transact 0x02 0 0 (.absent 0) 4 true false 10) ∧
    assembleLine "FRAME_BUILD 0x47, 0x02, 0x0002, [80 81]".toList = some (.frameBuild 0x47 2 2 (.present [0x80, 0x81])) ∧
    assembleLine "RANDOM 256".toList = none ∧ assembleLine "WAKE SLEEP".toList = none := by decide +kernel

/-! ### One operation each -/

/-- Section 1.2: the trailer of the vector. -/
theorem test_crcCompute :
    seen (exec (.crcCompute [0x07, 0x00, 0x00, 0x00, 0x00]) (asleep)) =
      (.asleep, 0, [0x03, 0xAD]) := by decide +kernel

/-- Section 2.1: bit 7 of a byte is taken last. -/
theorem test_crcCompute_bits : crc16 [0x80] = 0x8005 ∧ crc16 [0x01] = 0x8303 ∧ crc16 [] = 0x0000 := by decide +kernel

/-- Section 2.1: a byte-swapped trailer is refused. -/
theorem test_crcValidate :
    (after (exec (.crcValidate [0x07, 0x00, 0x00, 0x00, 0x00, 0x03, 0xAD]) asleep)).result = [0x01] ∧
    (after (exec (.crcValidate [0x07, 0x00, 0x00, 0x00, 0x00, 0xAD, 0x03]) asleep)).result = [0x00] := by decide +kernel

/-- Section 2.1: two zero bytes are too short. -/
theorem test_crcValidate_short :
    seen (exec (.crcValidate [0x00, 0x00]) (asleep)) = (.asleep, 0, [0x00]) := by decide +kernel

/-- Section 2.2: PARAM2 is written low byte first. -/
theorem test_frameBuild :
    seen (exec (.frameBuild 0x02 0x00 0x1234 (.absent 0)) (asleep)) =
      (.asleep, 0, [0x07, 0x02, 0x00, 0x34, 0x12, 0xAD, 0x44]) := by decide +kernel

/-- Section 2.2: an absent payload with a length is refused. -/
theorem test_frameBuild_pairing :
    seen (exec (.frameBuild 0x00 0x00 0x0000 (.absent 3)) (asleep)) = (.asleep, 1, []) := by decide +kernel

/-- Program P4, step 7: a TOLERATED send, then a wake response. -/
theorem test_wake :
    seen (exec .wake { asleep with oracle := [⟨.err 121, []⟩, ⟨.ok, [0x04, 0x11, 0x33, 0x43]⟩] }) =
      (.awake, 0, []) := by decide +kernel

/-- R193: a status that is not ST_WAKE; COUNT 4 in bits 23:16, STATUS 0x0F in bits 15:8, CODE 9. -/
theorem test_wake_failure :
    seen (exec .wake { asleep with oracle := replied [0x04, 0x0F, 0x23, 0x42] }) =
      (.faulted, 0x00040F09, []) := by decide +kernel

/-- Program P2, step 3. -/
theorem test_sleep : seen (exec .sleep (awake [⟨.ok, []⟩])) = (.asleep, 0, []) := by decide +kernel

/-- R194: a FATAL send; ERR2 holds the code. -/
theorem test_sleep_fatal :
    seen (exec .sleep (awake [⟨.err (-110), []⟩])) = (.faulted, 3, []) ∧
    (after (exec .sleep (awake [⟨.err (-110), []⟩]))).err2 = -110 := by decide +kernel

/-- Section 2.3, row 3: a corrupt trailer. -/
theorem test_transact :
    seen (exec (.transact 0x02 0x00 0x0000 (.absent 0) 4 true false 0) (awake (replied [0x07, 0x01, 0x23, 0x6A, 0x00, 0x6A, 0xD7]))) =       (.awake, 6, []) ∧
    (after (exec (.transact 0x02 0x00 0x0000 (.absent 0) 4 true false 0)
      (awake (replied [0x07, 0x01, 0x23, 0x6A, 0x00, 0x6A, 0xD7])))).err1 = 0xD66AD76A := by decide +kernel

/-- Section 2.3: with EX = 1 a short response is malformed, COUNT 16. -/
theorem test_transact_exact :
    seen (exec (.transact 0x02 0x00 0x0000 (.absent 0) 16 true true 0) (awake (replied
        [0x10, 0x00, 0x01, 0x02, 0x03, 0x04, 0x05, 0x06, 0x07, 0x08, 0x09, 0x0A, 0x0B, 0x0C, 0x61, 0xE2, 0x00, 0x00, 0x00]))) =       (.awake, 0x00100004, []) := by decide +kernel

/-- Program P4, step 4. -/
theorem test_readWord :
    seen (exec (.readWord 0 0x0000) (awake (replied [0x07, 0x01, 0x23, 0x6A, 0x00, 0x6A, 0xD6]))) =
      (.awake, 0, [0x01, 0x23, 0x6A, 0x00]) := by decide +kernel

/-- Program P4, step 1. -/
theorem test_readWord_asleep : seen (exec (.readWord 0 0x0000) (asleep)) = (.asleep, 2, []) := by decide +kernel

/-- R242, all three words being the one of section 1.4. -/
theorem test_readSerial :
    seen (exec .readSerial (awake (replied [0x07, 0x01, 0x23, 0x6A, 0x00, 0x6A, 0xD6] ++ replied [0x07, 0x01, 0x23, 0x6A, 0x00, 0x6A, 0xD6] ++ replied [0x07, 0x01, 0x23, 0x6A, 0x00, 0x6A, 0xD6]))) =       (.awake, 0, [0x01, 0x23, 0x6A, 0x00, 0x01, 0x23, 0x6A, 0x00, 0x01]) := by decide +kernel

/-- R240: the second read fails with a device status, and nothing is sent after it. -/
theorem test_readSerial_second_fails :
    seen (exec .readSerial (awake (replied [0x07, 0x01, 0x23, 0x6A, 0x00, 0x6A, 0xD6] ++ replied [0x04, 0x0F, 0x23, 0x42, 0x00, 0x00, 0x00]))) =       (.awake, 0x00000F07, []) ∧
    (after (exec .readSerial (awake (replied [0x07, 0x01, 0x23, 0x6A, 0x00, 0x6A, 0xD6] ++ replied [0x04, 0x0F, 0x23, 0x42, 0x00, 0x00, 0x00])))).asked = 4 := by decide +kernel

/-- 32 reads, each answered with the word of section 1.4. -/
def configScript : List Answer := (List.replicate 32 (replied [0x07, 0x01, 0x23, 0x6A, 0x00, 0x6A, 0xD6])).flatten

/-- R243: 32 words, 128 bytes. -/
theorem test_readConfigZone :
    seen (exec .readConfigZone (awake configScript)) =
      (.awake, 0, (List.replicate 32 [0x01, 0x23, 0x6A, 0x00]).flatten) := by decide +kernel

/-- Section 1.6: partially locked. -/
theorem test_readLockStatus :
    seen (exec .readLockStatus (awake (replied [0x07, 0xA5, 0x5A, 0x55, 0x00, 0xF2, 0x11]))) =
      (.awake, 0, [0x01]) := by decide +kernel

/-- Program P3, step 4: DOMAIN_DECODE, the pair in RESULT. -/
theorem test_readLockStatus_unknown :
    seen (exec .readLockStatus (awake (replied [0x07, 0x00, 0x00, 0x34, 0x12, 0xB0, 0xC4]))) =
      (.awake, 10, [0x12, 0x34]) := by decide +kernel

/-- The random response of program P4, step 8. -/
def randomReply : List Byte :=
  [0x23, 0x00, 0x00, 0x00, 0x00, 0x00, 0x00, 0x00, 0x2A, 0x10, 0x11, 0x12, 0x13, 0x14, 0x15, 0x16, 0x17, 0x18, 0x19, 0x1A, 0x1B, 0x1C, 0x1D, 0x1E, 0x1F, 0x20, 0x21, 0x22, 0x23, 0x24, 0x25, 0x26, 0x27, 0x01, 0x75]

/-- Program P4, step 8. -/
theorem test_random :
    seen (exec (.random 8) (awake (replied randomReply))) =
      (.awake, 0, [0x00, 0x00, 0x00, 0x00, 0x00, 0x00, 0x00, 0x2A]) := by decide +kernel

/-- R246: K = 0 is refused. -/
theorem test_random_zero : seen (exec (.random 0) (awake [])) = (.awake, 1, []) := by decide +kernel

/-- R247 by hand: 10 + 42 mod 21 = 10. -/
theorem test_randomRange :
    seen (exec (.randomRange 10 30) (awake (replied randomReply))) =
      (.awake, 0, [0x00, 0x00, 0x00, 0x00, 0x00, 0x00, 0x00, 0x0A]) := by decide +kernel

/-- R247: the whole 64-bit range keeps the value, 42. -/
theorem test_randomRange_full :
    seen (exec (.randomRange 0 0xFFFFFFFFFFFFFFFF) (awake (replied randomReply))) =
      (.awake, 0, [0x00, 0x00, 0x00, 0x00, 0x00, 0x00, 0x00, 0x2A]) := by decide +kernel

/-- The digest response of program P2. -/
def digestReply : List Byte :=
  [0x23, 0xA0, 0xA1, 0xA2, 0xA3, 0xA4, 0xA5, 0xA6, 0xA7, 0xA8, 0xA9, 0xAA, 0xAB, 0xAC, 0xAD, 0xAE, 0xAF, 0xB0, 0xB1, 0xB2, 0xB3, 0xB4, 0xB5, 0xB6, 0xB7, 0xB8, 0xB9, 0xBA, 0xBB, 0xBC, 0xBD, 0xBE, 0xBF, 0x5F, 0x57]

/-- R248: the empty message is a start and an end with no payload. -/
theorem test_hash :
    seen (exec (.hash []) (awake (replied [0x04, 0x00, 0x03, 0x40] ++ replied digestReply))) =
      (.awake, 0, (List.range 32).map fun i => BitVec.ofNat 8 (0xA0 + i)) := by decide +kernel

/-- Program P2, step 2: the two updates and the end phase of a 130-byte message. -/
theorem test_hash_plan :
    (hashPlan Config.cfgRef ((List.range 130).map (BitVec.ofNat 8))).map (fun x => (x.p1, x.p2, (payloadBytes x.pl).length)) =
      [(0x00, 0, 0), (0x01, 0, 64), (0x01, 0, 64), (0x02, 2, 2)] := by decide +kernel

/-- Program P3, step 2. -/
theorem test_aesEncrypt :
    seen (exec (.aesEncrypt 0 plaintext) (awake (replied [0x13, 0x07, 0x96, 0x94, 0xA6, 0x9E, 0xA6, 0x57, 0xE8, 0x43, 0xD9, 0x4A, 0x60, 0x34, 0xD3, 0x38, 0x15, 0xAA, 0x0C]))) =       (.awake, 0, ciphertext) := by decide +kernel

/-- R251: a block of 15 bytes is refused, Awake or not. -/
theorem test_aesEncrypt_length :
    seen (exec (.aesEncrypt 0 (List.replicate 15 0)) (asleep)) = (.asleep, 1, []) := by decide +kernel

/-- Section 1.7. -/
theorem test_aesDecrypt :
    seen (exec (.aesDecrypt 0 ciphertext) (awake (replied [0x13, 0x48, 0x65, 0x6C, 0x6C, 0x6F, 0x2C, 0x20, 0x41, 0x45, 0x53, 0x21, 0x00, 0x00, 0x00, 0x00, 0x00, 0x75, 0x70]))) =       (.awake, 0, plaintext) := by decide +kernel

/-- Section 1.7: the frame on the wire. -/
theorem test_aesDecrypt_frame :
    exchangeFrame (aesExchange Config.cfgRef 0x01 0 ciphertext) =
      [0x17, 0x51, 0x01, 0x00, 0x00] ++ ciphertext ++ [0xEC, 0xA6] := by decide +kernel

/-- Section 1.4: a 4-byte data response. -/
theorem test_cmdRead :
    seen (exec (.cmdRead 0x00 0x0000) (awake (replied [0x07, 0x01, 0x23, 0x6A, 0x00, 0x6A, 0xD6]))) =
      (.awake, 0, [0x01, 0x23, 0x6A, 0x00]) := by decide +kernel

/-- R97, R165: a success status answers a write. -/
theorem test_cmdWrite :
    seen (exec (.cmdWrite 0x00 0x0000 (.present [0xAB]) 0 true false 0) (awake (replied [0x04, 0x00, 0x03, 0x40]))) =
      (.awake, 0, []) := by decide +kernel

/-- Program P4, step 8: the whole response. -/
theorem test_cmdRandom :
    (after (exec .cmdRandom (awake (replied randomReply)))).result = (randomReply.drop 1).take 32 := by decide +kernel

/-- Program P2, step 2. -/
theorem test_cmdShaStart :
    seen (exec .cmdShaStart (awake (replied [0x04, 0x00, 0x03, 0x40]))) = (.awake, 0, []) := by decide +kernel

/-- Program P2, step 2. -/
theorem test_cmdShaUpdate :
    seen (exec (.cmdShaUpdate chunk) (awake (replied [0x04, 0x00, 0x03, 0x40]))) =
      (.awake, 0, []) := by decide +kernel

/-- Program P2, step 2: the digest. -/
theorem test_cmdShaEnd :
    (after (exec (.cmdShaEnd [0x80, 0x81]) (awake (replied digestReply)))).result = (digestReply.drop 1).take 32 := by decide +kernel

/-- Program P3, step 2. -/
theorem test_cmdAesEnc :
    seen (exec (.cmdAesEnc 0 plaintext) (awake (replied [0x13, 0x07, 0x96, 0x94, 0xA6, 0x9E, 0xA6, 0x57, 0xE8, 0x43, 0xD9, 0x4A, 0x60, 0x34, 0xD3, 0x38, 0x15, 0xAA, 0x0C]))) =       (.awake, 0, ciphertext) := by decide +kernel

/-- Program P3, step 3. -/
theorem test_cmdAesDec :
    seen (exec (.cmdAesDec 0 ciphertext) (awake (replied [0x13, 0x48, 0x65, 0x6C, 0x6C, 0x6F, 0x2C, 0x20, 0x41, 0x45, 0x53, 0x21, 0x00, 0x00, 0x00, 0x00, 0x00, 0x75, 0x70]))) =       (.awake, 0, plaintext) := by decide +kernel

/-- R89: one byte 0x00 to WAKE_ADDR. -/
theorem test_tokenWake :
    (after (exec .tokenWake { asleep with oracle := [⟨.ok, []⟩] })).trace = [.send 0x60 [0x00] .ok] := by decide +kernel

/-- R90: one byte SLEEP_TOKEN to BUS_ADDR. -/
theorem test_tokenSleep :
    (after (exec .tokenSleep (awake [⟨.ok, []⟩]))).trace = [.send 0x60 [0x01] .ok] := by decide +kernel

/-- R26: BUSY in bit 0, SESSION in bits 2:1. -/
theorem test_stat :
    stat asleep = 0x00 ∧ stat (awake []) = 0x02 ∧ stat { awake [] with session := .faulted, busy := true } = 0x05 := by decide +kernel

/-! ### The hypotheses of the statements can be met -/

/-- An awake block whose next exchange the reader accepts with this payload (R87). -/
def answering (p : List Byte) : State := awake (replied (intact p))

/-- An awake block that has a token send answered FATAL. -/
def failing : State := awake [⟨.err (-110), []⟩]

theorem test_witness_StepRunsTheDecodedInstruction :
    { asleep with requests := [.descriptor [0x10]] }.requests = .descriptor [0x10] :: [] ∧
      decode Config.cfgRef (.descriptor [0x10]) = .instr .wake := by decide +kernel

theorem test_witness_DecodeOfEncodeIsTheInstruction :
    wellFormed (.random 0) = true ∧ isHostOp (.random 0) = true ∧
      wellFormed (.cmdShaEnd []) = true ∧ isHostOp (.cmdShaEnd []) = false ∧ Config.cfgRef.WireDistinct := by decide +kernel

theorem test_witness_EncodeOfDecodeIsTheRequest :
    decode Config.cfgRef (.wire [0x07, 0x02, 0x00, 0x15, 0x00, 0x17, 0x5D]) = .instr (.cmdRead 0x00 0x0015) := by
  decide +kernel

theorem test_witness_DecodedInstructionsAreWellFormed :
    decode Config.cfgRef (.descriptor [0x61, 0x00, 0x00, 0x00]) = .instr (.aesDecrypt 0 []) := by decide +kernel

theorem test_witness_LinesAreHostOperations : assembleLine "RANDOM 32 ; the most".toList = some (.random 32) := by
  decide +kernel

/-- At both ends of the unassigned values. -/
theorem test_witness_UnassignedOperationsAreRefused :
    asleep.busy = false ∧ hopAssigned 0x00 = false ∧ hopAssigned 0x62 = false ∧ hopAssigned 0xFF = false ∧
      { asleep with requests := [.descriptor [0xFF]] }.requests = .descriptor [0xFF] :: [] := by decide +kernel

/-- The longest payload, at its first and its last byte. -/
theorem test_witness_FramesAreLaidOut :
    (List.replicate 248 (0 : Byte)).length ≤ 248 ∧ 0 < (List.replicate 248 (0 : Byte)).length ∧
      247 < (List.replicate 248 (0 : Byte)).length := by
  rw [List.length_replicate]
  decide

theorem test_witness_AcceptedOperationsComplete : asleep.busy = false := rfl

/-- An error that leaves RESULT empty, and DOMAIN_DECODE. -/
theorem test_witness_ErrorsLeaveNoResult :
    asleep.busy = false ∧ exec (.random 0) asleep = .next (after (exec (.random 0) asleep)) ∧
      errCode (after (exec (.random 0) asleep)).err0 ≠ 0 ∧
      exec .readLockStatus (answering [0, 0, 0x34, 0x12]) =
        .next (after (exec .readLockStatus (answering [0, 0, 0x34, 0x12]))) ∧
      errCode (after (exec .readLockStatus (answering [0, 0, 0x34, 0x12]))).err0 = 10 :=
  ⟨rfl, rfl, by decide +kernel, rfl, by decide +kernel⟩

theorem test_witness_BusyPortTakesNothing : { asleep with busy := true }.busy = true := rfl

/-- WAKE that succeeds and one that does not; SLEEP likewise; a command whose send is FATAL. -/
theorem test_witness_SessionFollowsTheTable :
    asleep.busy = false ∧
      exec .wake { asleep with oracle := replied [0x04, 0x11, 0x33, 0x43] } =
        .next (after (exec .wake { asleep with oracle := replied [0x04, 0x11, 0x33, 0x43] })) ∧
      (after (exec .wake { asleep with oracle := replied [0x04, 0x11, 0x33, 0x43] })).err0 = 0 ∧
      (after (exec .wake failing)).err0 ≠ 0 ∧ (after (exec .sleep (awake (replied [])))).err0 = 0 ∧
      (after (exec .sleep failing)).err0 ≠ 0 ∧ errCode (after (exec .cmdRandom failing)).err0 = 3 :=
  ⟨rfl, rfl, by decide +kernel, by decide +kernel, by decide +kernel, by decide +kernel, by decide +kernel⟩

theorem test_witness_CommandsNeedAwake :
    asleep.busy = false ∧ asleep.session ≠ .awake ∧ ArgumentsValid asleep.cfg .readSerial ∧ isCommand .readSerial = true ∧
      wireExchange asleep.cfg .cmdRandom = some (randomExchange asleep.cfg) ∧ ArgumentsValid asleep.cfg .cmdRandom ∧
      ArgumentsValid asleep.cfg (.transact 0x02 0x00 0x0000 (.absent 0) 4 true false 0) :=
  ⟨rfl, by decide, trivial, rfl, rfl, trivial, by decide, .inl rfl⟩

/-- Each range of R101, just outside its ends. -/
theorem test_witness_BadArgumentsAreRefused :
    asleep.busy = false ∧ ¬ArgumentsValid asleep.cfg (.readWord 3 0) ∧ isHostOp (.readWord 3 0) = true ∧
      ¬ArgumentsValid asleep.cfg (.random 0) ∧ ¬ArgumentsValid asleep.cfg (.random 33) ∧
      ¬ArgumentsValid asleep.cfg (.randomRange 1 0) ∧ ¬ArgumentsValid asleep.cfg (.aesEncrypt 0 (List.replicate 15 0)) ∧
      ¬ArgumentsValid asleep.cfg (.aesDecrypt 0 (List.replicate 17 0)) ∧
      ¬ArgumentsValid asleep.cfg (.frameBuild 0 0 0 (.absent 1)) ∧
      ¬ArgumentsValid asleep.cfg (.transact 0 0 0 (.absent 0) 253 true false 0) ∧
      ¬ArgumentsValid asleep.cfg (.cmdWrite 0 0 (.present (List.replicate 145 0)) 0 true false 0) :=
  ⟨rfl, by simp [ArgumentsValid], rfl, by simp [ArgumentsValid], by simp [ArgumentsValid], by simp [ArgumentsValid],
    by simp [ArgumentsValid], by simp [ArgumentsValid], by simp [ArgumentsValid, PayloadTaken],
    by simp [ArgumentsValid], by simp [ArgumentsValid, PayloadTaken, asleep, Config.cfgRef]⟩

theorem test_witness_OperationsRaiseOnlyTheirErrors :
    asleep.busy = false ∧ ArgumentsValid asleep.cfg (.random 32) ∧
      exec (.random 32) asleep = .next (after (exec (.random 32) asleep)) :=
  ⟨rfl, by simp [ArgumentsValid], rfl⟩

theorem test_witness_OperationsLeaveTheRestAlone :
    exec (.crcCompute []) asleep = .next (after (exec (.crcCompute []) asleep)) ∧ isLocal (.crcCompute []) = true ∧
      exec .tokenSleep asleep = .next (after (exec .tokenSleep asleep)) :=
  ⟨rfl, rfl, rfl⟩

theorem test_witness_ChecksumIsLinear :
    ([0x07, 0x00, 0x00, 0x00, 0x00] : List Byte).length = ([0x00, 0x02, 0x00, 0x15, 0x00] : List Byte).length := rfl

theorem test_witness_BuiltFramesValidate :
    asleep.busy = false ∧
      exec (.frameBuild 0 0 0 (.absent 0)) asleep = .next (after (exec (.frameBuild 0 0 0 (.absent 0)) asleep)) ∧
      (after (exec (.frameBuild 0 0 0 (.absent 0)) asleep)).err0 = 0 :=
  ⟨rfl, rfl, by decide +kernel⟩

/-- The first bit of the first byte and the last bit of the last. -/
theorem test_witness_SingleBitFlipsAreDetected :
    asleep.busy = false ∧ exec (.crcValidate [0, 0, 0]) asleep = .next (after (exec (.crcValidate [0, 0, 0]) asleep)) ∧
      (after (exec (.crcValidate [0, 0, 0]) asleep)).result = [0x01] ∧ ([0, 0, 0] : List Byte)[0]? = some 0 ∧
      ([0, 0, 0] : List Byte)[2]? = some 0 ∧ 0 < 8 ∧ 7 < 8 :=
  ⟨rfl, rfl, by decide +kernel, rfl, rfl, by decide, by decide⟩

theorem test_witness_ChecksumOperationsComplete : asleep.busy = false ∧ ([0, 0] : List Byte).length < 3 := by decide

/-- The largest payload and none. -/
theorem test_witness_FrameBuildCompletes :
    asleep.busy = false ∧ PayloadTaken asleep.cfg (.absent 0) ∧
      PayloadTaken asleep.cfg (.present (List.replicate 144 0)) ∧ PayloadTaken asleep.cfg (.present [0]) :=
  ⟨rfl, .inl rfl, .inr ⟨_, rfl, by simp, by simp [asleep, Config.cfgRef]⟩, .inr ⟨_, rfl, by decide, by decide⟩⟩

/-- The four ends of WAKE. -/
theorem test_witness_WakeFollowsItsRule :
    let fatalRecv := { asleep with oracle := [⟨.err 5, []⟩, ⟨.err (-1), []⟩] }
    let other := { asleep with oracle := replied [0x05, 0x11, 0x00, 0x00] }
    let woken := { asleep with oracle := replied [0x04, 0x11, 0x33, 0x43] }
    failing.busy = false ∧ FatalWith failing.cfg (outcomeAt failing 0) (-110) ∧
      fatalRecv.busy = false ∧ GoesOn fatalRecv.cfg (outcomeAt fatalRecv 0) ∧
      FatalWith fatalRecv.cfg (outcomeAt fatalRecv 1) (-1) ∧
      other.busy = false ∧ GoesOn other.cfg (outcomeAt other 0) ∧ GoesOn other.cfg (outcomeAt other 1) ∧
      (bytesAt other 1 4).getD 0 0 ≠ 4 ∧
      woken.busy = false ∧ GoesOn woken.cfg (outcomeAt woken 0) ∧ GoesOn woken.cfg (outcomeAt woken 1) ∧
      (bytesAt woken 1 4).getD 0 0 = 4 ∧ (bytesAt woken 1 4).getD 1 0 = woken.cfg.stWake := by decide +kernel

theorem test_witness_SleepFollowsItsRule :
    failing.busy = false ∧ FatalWith failing.cfg (outcomeAt failing 0) (-110) ∧
      (answering []).busy = false ∧ GoesOn (answering []).cfg (outcomeAt (answering []) 0) := by decide +kernel

theorem test_witness_TokensAreOneSend :
    failing.busy = false ∧ FatalWith failing.cfg (outcomeAt failing 0) (-110) ∧
      (answering []).busy = false ∧ GoesOn (answering []).cfg (outcomeAt (answering []) 0) := by decide +kernel

/-- The smallest and the largest N. -/
theorem test_witness_TransactFollowsTheReadersTable :
    (awake []).busy = false ∧ (awake []).session = .awake ∧ (0 : Byte).toNat ≤ 252 ∧ (252 : Byte).toNat ≤ 252 ∧
      PayloadTaken (awake []).cfg (.absent 0) :=
  ⟨rfl, rfl, by decide, by decide, .inl rfl⟩

/-- N = 2, the least that succeeds, and N = 1. -/
theorem test_witness_TransactReturnsIntactPayloads :
    let s := answering [0x55, 0x66]
    let i : Byte → Instr := fun n => .transact 0x02 0 0 (.absent 0) n true false 0
    s.busy = false ∧ s.session = .awake ∧ PayloadTaken s.cfg (.absent 0) ∧ (1 : Byte).toNat ≤ 252 ∧ 1 ≤ (1 : Byte).toNat ∧
      (2 : Byte).toNat ≤ 252 ∧ 1 ≤ (2 : Byte).toNat ∧ GoesOn s.cfg (outcomeAt s 0) ∧ GoesOn s.cfg (outcomeAt s 1) ∧
      exec (i 1) s = .next (after (exec (i 1) s)) ∧ exec (i 2) s = .next (after (exec (i 2) s)) ∧
      bytesAt s 1 5 = intact [0x55, 0x66] :=
  ⟨rfl, rfl, .inl rfl, by decide, by decide, by decide, by decide, by decide +kernel, by decide +kernel, rfl, rfl,
    by decide +kernel⟩

theorem test_witness_TransactCompletes :
    let s := answering [0x55, 0x66]
    s.busy = false ∧ s.session = .awake ∧ (2 : Byte).toNat ≤ 252 ∧ PayloadTaken s.cfg (.absent 0) ∧
      Answers s [⟨0x02, 0, 0, .absent 0, 2, true, false, 0⟩] [[0x55, 0x66]] :=
  ⟨rfl, rfl, by decide, .inl rfl, answers_of _ _ _ (by decide +kernel)⟩

/-- One wire command that expects a payload, one that expects a status, and a write. -/
theorem test_witness_WireCommandsComplete :
    let read := answering [1, 2, 3, 4]
    let start := awake (replied [0x04, 0x00, 0x03, 0x40])
    let write : Instr := .cmdWrite 0 0 (.present [0xAB]) 0 true false 0
    wireExchange read.cfg (.cmdRead 0 0) = some (readExchange read.cfg 0 0) ∧ ArgumentsValid read.cfg (.cmdRead 0 0) ∧
      read.busy = false ∧ read.session = .awake ∧ Answers read [readExchange read.cfg 0 0] [[1, 2, 3, 4]] ∧
      ArgumentsValid start.cfg .cmdShaStart ∧ Answers start [shaStartExchange start.cfg] [[]] ∧
      ArgumentsValid start.cfg write ∧
      Answers start [⟨start.cfg.opWrite, 0, 0, .present [0xAB], 0, true, false, 0⟩] [[]] :=
  ⟨rfl, trivial, rfl, rfl, answers_of _ _ _ (by decide +kernel), trivial, answers_of _ _ _ (by decide +kernel),
    ⟨by decide, .inr ⟨_, rfl, by decide, by decide⟩⟩, answers_of _ _ _ (by decide +kernel)⟩

/-- Each zone selector. -/
theorem test_witness_ReadWordCompletes :
    let s := answering [1, 2, 3, 4]
    s.busy = false ∧ s.session = .awake ∧ s.cfg.zoneConfig = 0x00 ∧ s.cfg.zoneOtp = 0x01 ∧ s.cfg.zoneData = 0x02 ∧
      Answers s [readExchange s.cfg 0x00 0] [[1, 2, 3, 4]] ∧ Answers s [readExchange s.cfg 0x01 0] [[1, 2, 3, 4]] ∧
      Answers s [readExchange s.cfg 0x02 0xFFFF] [[1, 2, 3, 4]] :=
  ⟨rfl, rfl, rfl, rfl, rfl, answers_of _ _ _ (by decide +kernel), answers_of _ _ _ (by decide +kernel),
    answers_of _ _ _ (by decide +kernel)⟩

/-- An awake block that has n exchanges answered with this payload. -/
def answeringTimes (n : Nat) (p : List Byte) : State := awake (List.replicate n (replied (intact p))).flatten

theorem test_witness_ReadSerialCompletes :
    let s := answeringTimes 3 [1, 2, 3, 4]
    s.busy = false ∧ s.session = .awake ∧ Answers s (serialPlan s.cfg) [[1, 2, 3, 4], [1, 2, 3, 4], [1, 2, 3, 4]] :=
  ⟨rfl, rfl, answers_of _ _ _ (by decide +kernel)⟩

/-- The last byte of the last word. -/
theorem test_witness_ReadConfigZoneCompletes :
    let s := answeringTimes 32 [1, 2, 3, 4]
    s.busy = false ∧ s.session = .awake ∧ Answers s (configPlan s.cfg) (List.replicate 32 [1, 2, 3, 4]) ∧ 3 < 4 ∧
      (List.replicate 32 ([1, 2, 3, 4] : List Byte))[31]? = some [1, 2, 3, 4] :=
  ⟨rfl, rfl, answers_of _ _ _ (by decide +kernel), by decide, rfl⟩

/-- The three states of the table and a pair outside it. -/
theorem test_witness_LockStatusFollowsItsTable :
    ∀ w ∈ ([[0, 0, 0, 0], [0, 0, 0x55, 0], [0, 0, 0x55, 0x55], [0, 0, 0, 0x55]] : List (List Byte)),
      (answering w).busy = false ∧ (answering w).session = .awake ∧
        Answers (answering w) [readExchange Config.cfgRef 0x00 0x0015] [w] := by
  intro w hw
  refine ⟨rfl, rfl, answers_of _ _ _ ?_⟩
  revert w
  decide +kernel

/-- The smallest and the largest K. -/
theorem test_witness_RandomCompletes :
    let s := awake (replied randomReply)
    s.busy = false ∧ s.session = .awake ∧ 1 ≤ (1 : Byte).toNat ∧ (1 : Byte).toNat ≤ 32 ∧ 1 ≤ (32 : Byte).toNat ∧
      (32 : Byte).toNat ≤ 32 ∧ Answers s [randomExchange s.cfg] [(randomReply.drop 1).take 32] :=
  ⟨rfl, rfl, by decide, by decide, by decide, by decide, answers_of _ _ _ (by decide +kernel)⟩

/-- A range of one value at the top, and the whole range. -/
theorem test_witness_RandomRangeStaysInRange :
    let s := awake (replied randomReply)
    let top : U64 := 0xFFFFFFFFFFFFFFFF
    s.busy = false ∧ s.session = .awake ∧ top.toNat ≤ top.toNat ∧ (0 : U64).toNat ≤ top.toNat ∧
      Answers s [randomExchange s.cfg] [(randomReply.drop 1).take 32] :=
  ⟨rfl, rfl, by decide, by decide, answers_of _ _ _ (by decide +kernel)⟩

/-- The empty message, and one of exactly one chunk. -/
theorem test_witness_HashCompletes :
    let ok : List Answer := replied [0x04, 0x00, 0x03, 0x40]
    let digest := (digestReply.drop 1).take 32
    let empty := awake (ok ++ replied digestReply)
    let one := awake (ok ++ ok ++ replied digestReply)
    empty.busy = false ∧ empty.session = .awake ∧ Answers empty (hashPlan empty.cfg []) [[], digest] ∧
      one.busy = false ∧ one.session = .awake ∧ Answers one (hashPlan one.cfg chunk) [[], [], digest] :=
  ⟨rfl, rfl, answers_of _ _ _ (by decide +kernel), rfl, rfl, answers_of _ _ _ (by decide +kernel)⟩

theorem test_witness_CiphersComplete :
    let s := answering ciphertext
    s.busy = false ∧ s.session = .awake ∧ plaintext.length = 16 ∧ Answers s [aesExchange s.cfg 0x00 0 plaintext] [ciphertext] ∧
      Answers s [aesExchange s.cfg 0x01 0 plaintext] [ciphertext] :=
  ⟨rfl, rfl, rfl, answers_of _ _ _ (by decide +kernel), answers_of _ _ _ (by decide +kernel)⟩

/-- Each operand at an end of its range. -/
theorem test_witness_LibraryOperationsRunTheirPlans :
    (awake []).busy = false ∧ (awake []).session = .awake ∧ zoneCode (awake []).cfg 0 = some 0x00 ∧
      zoneCode (awake []).cfg 2 = some 0x02 ∧ 1 ≤ (1 : Byte).toNat ∧ (32 : Byte).toNat ≤ 32 ∧
      (0xFFFFFFFFFFFFFFFF : U64).toNat ≤ (0xFFFFFFFFFFFFFFFF : U64).toNat ∧ (List.replicate 16 (0 : Byte)).length = 16 := by
  decide +kernel

/-- The first and the last chunk of a message of two, with no bytes left, and a message with bytes left. -/
theorem test_witness_HashPlanCoversTheMessage :
    0 < (chunk ++ chunk).length / 64 ∧ 1 < (chunk ++ chunk).length / 64 ∧ 0 < 64 ∧ 63 < 64 ∧
      (chunk ++ chunk).length % 64 = 0 ∧ (chunk ++ [0]).length % 64 ≠ 0 := by decide +kernel

theorem test_witness_HashIsItsWireCommands : (awake []).busy = false ∧ (awake []).session = .awake := ⟨rfl, rfl⟩

/-- A block at rest with a request to run. -/
theorem test_witness_StepsKeepResting :
    let s := { asleep with requests := [.descriptor [0x10]] }
    Resting s ∧ step s = .next (after (step s)) :=
  ⟨⟨⟨rfl, rfl, rfl, rfl, rfl⟩, by decide, .inl ⟨rfl, rfl, rfl⟩, fun h => absurd rfl h, fun h => by
    exact absurd h (by decide), fun h => absurd h (by decide)⟩, rfl⟩

theorem test_witness_ConfigurationNeverChanges :
    let s := { asleep with requests := [.descriptor [0x10]] }
    step s = .next (after (step s)) := rfl

theorem test_witness_EventsKeepToThePort : exec .wake asleep = .next (after (exec .wake asleep)) := rfl

/-- A command that makes as many exchanges as it may, and a wire command. -/
theorem test_witness_OneExchangeInFlight :
    let s := answeringTimes 3 [1, 2, 3, 4]
    let t := after (exec .readSerial s)
    isCommand .readSerial = true ∧ exec .readSerial s = .next t ∧ (sentBytes (newEvents s t)).length = exchangeBound .readSerial ∧
      kindOf .cmdRandom = .wire ∧ exec .cmdRandom (awake []) = .next (after (exec .cmdRandom (awake []))) :=
  ⟨rfl, rfl, by decide +kernel, rfl, rfl⟩

/-- A block just accepting an operation, and a block at rest. -/
theorem test_witness_PhaseIsIdleExactlyAtRest : asleep.busy = false ∧ InProgress (accepted asleep) := by decide

/-- Two blocks that differ in everything an earlier operation leaves behind. -/
theorem test_witness_StaleStateDoesNotMatter :
    let s := awake (replied [0x04, 0x00, 0x03, 0x40])
    let s' := { s with
      err0 := 6, err1 := 7, err2 := 8, result := [9], phase := .recv, timer := 3, crcReg := 5, txBuf := [1], rxBuf := [2]
      ctxStep := 4, acc := [3], trace := [.wait 0] }
    s.busy = false ∧ s'.busy = false ∧ s.session = s'.session ∧ s.cfg = s'.cfg ∧ s.oracle = s'.oracle ∧ s.asked = s'.asked :=
  ⟨rfl, rfl, rfl, rfl, rfl, rfl⟩

/-- The script holds a TOLERATED answer. -/
theorem test_witness_ToleratedCountsAsOk :
    let s := awake [⟨.err 121, []⟩]
    exec .sleep s = .next (after (exec .sleep s)) := rfl


end Sys2Proof.Tests
end

section
/-! SUPPORT. What every part of an operation keeps, and what it may answer: one rule for going on after a part, one lemma
for each part, one for each instruction. -/

namespace Sys2Proof.Machine

/-! ### Going on after a part -/

/-- What holds of the state a part ends in and is kept by what follows it holds where the two together end. -/
theorem andThen_state_of {α β : Type} {P : State → Prop} {r : Reply α} {f : α → State → Reply β} (hr : P r.state)
    (hf : ∀ a t, P t → P (f a t).state) : P (r.andThen f).state := by
  cases r with
  | val a t => exact hf a t hr
  | raised e t => exact hr

/-- What every part of an operation keeps of the state s it begins in: CFG and the requests (R34), BUSY (R25), and that
PHASE is not IDLE (R35). -/
structure Inside (s t : State) : Prop where
  cfg : t.cfg = s.cfg
  requests : t.requests = s.requests
  busy : t.busy = s.busy
  phase : s.phase ≠ .idle → t.phase ≠ .idle

theorem Inside.refl (s : State) : Inside s s := ⟨rfl, rfl, rfl, id⟩

theorem Inside.trans {s t u : State} (h : Inside s t) (h' : Inside t u) : Inside s u :=
  ⟨h'.cfg.trans h.cfg, h'.requests.trans h.requests, h'.busy.trans h.busy, h'.phase ∘ h.phase⟩

theorem Inside.inProgress {s t : State} (h : Inside s t) (hs : InProgress s) : InProgress t :=
  ⟨h.busy.trans hs.1, h.phase hs.2⟩

/-- The state an error may be raised in: NOT_AWAKE outside Awake alone (R302), DOMAIN_DECODE with the pair in RESULT (R310). -/
structure LawfulRaise (e : Err) (t : State) : Prop where
  notAwake : e = .notAwake → t.session ≠ .awake
  domainDecode : e = .domainDecode → t.result.length = 2

theorem LawfulRaise.invalidArgument (t : State) : LawfulRaise .invalidArgument t := ⟨nofun, nofun⟩

theorem LawfulRaise.transport (code : U32) (t : State) : LawfulRaise (.transport code) t := ⟨nofun, nofun⟩

theorem LawfulRaise.wakeFailure (count status : Byte) (t : State) : LawfulRaise (.wakeFailure count status) t :=
  ⟨nofun, nofun⟩

/-- The part of an operation begun in s runs by the rules: it keeps what a part keeps, its raise is lawful, and where it
goes on Q holds. -/
def Reply.Runs {α : Type} (s : State) (Q : α → State → Prop) : Reply α → Prop
  | .val a t => Inside s t ∧ Q a t
  | .raised e t => Inside s t ∧ LawfulRaise e t

theorem Reply.Runs.inside {α : Type} {s : State} {Q : α → State → Prop} {r : Reply α} (h : r.Runs s Q) :
    Inside s r.state := by
  cases r with
  | val a t => exact h.1
  | raised e t => exact h.1

/-- A part begun after s has gone on to t counts from s too. -/
theorem Reply.Runs.of_inside {α : Type} {s t : State} {Q : α → State → Prop} {r : Reply α} (h : r.Runs t Q)
    (hst : Inside s t) : r.Runs s Q := by
  cases r with
  | val a u => exact ⟨hst.trans h.1, h.2⟩
  | raised e u => exact ⟨hst.trans h.1, h.2⟩

theorem Reply.Runs.andThen {α β : Type} {s : State} {Q : α → State → Prop} {Q' : β → State → Prop} {r : Reply α}
    {f : α → State → Reply β} (h : r.Runs s Q) (hf : ∀ a t, Inside s t → Q a t → (f a t).Runs t Q') :
    (r.andThen f).Runs s Q' := by
  cases r with
  | raised e t => exact h
  | val a t =>
    obtain ⟨hst, hq⟩ := h
    exact (hf a t hst hq).of_inside hst

theorem Reply.Runs.weaken {α : Type} {s : State} {Q Q' : α → State → Prop} {r : Reply α} (h : r.Runs s Q)
    (hq : ∀ a t, Q a t → Q' a t) : r.Runs s Q' := by
  cases r with
  | val a t => exact ⟨h.1, hq a t h.2⟩
  | raised e t => exact h

theorem Reply.Runs.output {s : State} {Q Q' : List Byte → State → Prop} {r : Reply (List Byte)}
    {f : List Byte → List Byte} (h : r.Runs s Q) (hq : ∀ p t, Q p t → Q' (f p) t) : (r.output f).Runs s Q' :=
  h.andThen fun p t _ hp => ⟨.refl t, hq p t hp⟩

theorem invalidArgument_runs {α : Type} (s : State) (Q : α → State → Prop) :
    (Reply.raised .invalidArgument s).Runs s Q :=
  ⟨.refl s, .invalidArgument s⟩

theorem require_runs {p : Bool} {body : State → Reply (List Byte)} {s : State} {Q : List Byte → State → Prop}
    (h : p = true → (body s).Runs s Q) : (require p body s).Runs s Q := by
  rw [require_eq]
  split
  · next hp => exact h hp
  · exact invalidArgument_runs s Q

theorem awakeGate_runs {body : State → Reply (List Byte)} {s : State} {Q : List Byte → State → Prop}
    (h : (body s).Runs s Q) : (awakeGate body s).Runs s Q := by
  rw [awakeGate_eq]
  split
  · exact h
  · next hs => exact ⟨.refl s, fun _ => hs, nofun⟩

/-! ### The transport port, the settle timer -/

theorem send_phase (addr : BusAddr) (bytes : List Byte) (s : State) : (send addr bytes s).state.phase = .send := by
  rw [send_eq]; dsimp only; split <;> rfl

theorem recv_phase (addr : BusAddr) (len : Nat) (s : State) : (recv addr len s).state.phase = .recv := by
  rw [recv_eq]; dsimp only; split <;> rfl

theorem send_runs (addr : BusAddr) (bytes : List Byte) (s : State) :
    (send addr bytes s).Runs s fun _ _ => True := by
  rw [send_eq]
  dsimp only
  split
  · exact ⟨⟨rfl, rfl, rfl, nofun⟩, .transport _ _⟩
  · exact ⟨⟨rfl, rfl, rfl, nofun⟩, trivial⟩

theorem recv_runs (addr : BusAddr) (len : Nat) (s : State) :
    (recv addr len s).Runs s fun _ _ => True := by
  rw [recv_eq]
  dsimp only
  split
  · exact ⟨⟨rfl, rfl, rfl, nofun⟩, .transport _ _⟩
  · exact ⟨⟨rfl, rfl, rfl, nofun⟩, trivial⟩

theorem wait_inside (t : U32) (s : State) : Inside s (wait t s) := ⟨rfl, rfl, rfl, nofun⟩

theorem runCrc_inside (bytes : List Byte) (s : State) : Inside s (runCrc bytes s) := ⟨rfl, rfl, rfl, id⟩

/-! ### The framer and the reader -/

theorem frameOf_length_le {c : Cfg} {pl : Payload} (h : PayloadTaken c pl) (opc p1 : Byte) (p2 : U16) :
    (frameOf opc p1 p2 (payloadBytes pl)).length ≤ 255 := by
  have hmin : 71 ≤ c.maxCmdSize.toNat := c.valid.1
  have hmax : c.maxCmdSize.toNat < 256 := c.maxCmdSize.isLt
  rw [frameOf_length]
  rcases h with rfl | ⟨data, rfl, -, hlen⟩
  · simp [payloadBytes]
  · simp only [payloadBytes]
    omega

theorem build_runs (opc p1 : Byte) (p2 : U16) (pl : Payload) (s : State) :
    (build opc p1 p2 pl s).Runs s fun p _ => p.length ≤ 255 := by
  by_cases h : PayloadTaken s.cfg pl
  · rw [build_eq, if_pos ((payloadAccepted_iff _ _).mpr h)]
    exact ⟨⟨rfl, rfl, rfl, id⟩, frameOf_length_le h _ _ _⟩
  · rw [build_of_not_taken h]
    exact invalidArgument_runs s _

/-- The reader raises none of the errors that ask for a state of their own (R163-R168). -/
theorem verdict_error_lawful {n : Nat} {check exact : Bool} {buf : List Byte} {e : Err}
    (h : verdict n check exact buf = .error e) (t : State) : LawfulRaise e t := by
  simp only [verdict] at h
  repeat' split at h
  all_goals cases h <;> exact ⟨nofun, nofun⟩

theorem receive_runs (n : Nat) (check exact : Bool) (s : State) :
    (receive n check exact s).Runs s fun p _ => p.length = n := by
  rw [receive_eq]
  split
  · exact ⟨⟨rfl, rfl, rfl, nofun⟩, .transport _ _⟩
  · split
    · next e he => exact ⟨⟨rfl, rfl, rfl, nofun⟩, verdict_error_lawful he _⟩
    · next p hp => exact ⟨⟨rfl, rfl, rfl, nofun⟩, verdict_length (answerBytes_length _ _) hp⟩

/-! ### The exchange, the plan, the dispatcher -/

/-- An exchange answers a payload of the length it expects (R160, R221). -/
theorem exchange_runs (x : Exchange) (s : State) :
    (exchange x s).Runs s fun p t => p.length = x.expect ∧ t.acc = s.acc := by
  by_cases h : PayloadTaken s.cfg x.pl
  · rw [exchange_eq x s h]
    split
    · exact ⟨⟨rfl, rfl, rfl, nofun⟩, .transport _ _⟩
    split
    · exact ⟨⟨rfl, rfl, rfl, nofun⟩, .transport _ _⟩
    split
    · next e he => exact ⟨⟨rfl, rfl, rfl, nofun⟩, verdict_error_lawful he _⟩
    · next p hp => exact ⟨⟨rfl, rfl, rfl, nofun⟩, verdict_length (exchangeBytes_length x s) hp, rfl⟩
  · rw [exchange, build_of_not_taken h]
    exact invalidArgument_runs s _

/-- A plan answers what stood in ACC and a payload of every exchange (R240). -/
theorem gather_runs (xs : List Exchange) (s : State) :
    (gather xs s).Runs s fun p _ => p.length = s.acc.length + (xs.map Exchange.expect).sum := by
  induction xs generalizing s with
  | nil => exact ⟨.refl s, rfl⟩
  | cons x xs ih =>
    refine (exchange_runs x s).andThen fun p t _ ⟨hp, hacc⟩ => ?_
    refine ((ih { t with acc := t.acc ++ p }).of_inside (s := t) ⟨rfl, rfl, rfl, id⟩).weaken fun q _ hq => ?_
    rw [hq, List.length_append, hp, hacc, List.map_cons, List.sum_cons, Nat.add_assoc]

theorem dispatch_runs (x : Exchange) (s : State) :
    (dispatch x s).Runs s fun p _ => p.length = x.expect :=
  (build_runs x.opc x.p1 x.p2 x.pl s).andThen fun _ t _ _ =>
    awakeGate_runs ((exchange_runs x t).weaken fun _ _ h => h.1)

/-! ### The ends of WAKE and READ_LOCK_STATUS -/

theorem acceptWake_runs (buf : List Byte) (s : State) : (acceptWake buf s).Runs s fun p _ => p.length ≤ 255 := by
  rw [acceptWake]
  split
  · exact ⟨⟨rfl, rfl, rfl, id⟩, by simp⟩
  · exact ⟨.refl s, .wakeFailure _ _ s⟩

theorem decodeLock_runs (word : List Byte) (s : State) : (decodeLock word s).Runs s fun p _ => p.length ≤ 255 := by
  rw [decodeLock]
  split
  · exact ⟨.refl s, by simp⟩
  · exact ⟨⟨rfl, rfl, rfl, id⟩, nofun, fun _ => rfl⟩

/-! ### How an operation ends -/

@[simp] theorem finish_busy (r : Reply (List Byte)) : r.finish.busy = false := by cases r <;> rfl
@[simp] theorem finish_phase (r : Reply (List Byte)) : r.finish.phase = .idle := by cases r <;> rfl
@[simp] theorem finish_cfg (r : Reply (List Byte)) : r.finish.cfg = r.state.cfg := by cases r <;> rfl
@[simp] theorem finish_requests (r : Reply (List Byte)) : r.finish.requests = r.state.requests := by cases r <;> rfl
@[simp] theorem finish_crcReg (r : Reply (List Byte)) : r.finish.crcReg = r.state.crcReg := by cases r <;> rfl
@[simp] theorem finish_txBuf (r : Reply (List Byte)) : r.finish.txBuf = r.state.txBuf := by cases r <;> rfl
@[simp] theorem finish_rxBuf (r : Reply (List Byte)) : r.finish.rxBuf = r.state.rxBuf := by cases r <;> rfl
@[simp] theorem finish_oracle (r : Reply (List Byte)) : r.finish.oracle = r.state.oracle := by cases r <;> rfl
@[simp] theorem finish_asked (r : Reply (List Byte)) : r.finish.asked = r.state.asked := by cases r <;> rfl
@[simp] theorem finish_trace (r : Reply (List Byte)) : r.finish.trace = r.state.trace := by cases r <;> rfl

@[simp] theorem errCode_packErr0 (code : BitVec 4) (status count : Byte) :
    errCode (packErr0 code status count) = code :=
  low_append code (0#8 ++ count ++ status ++ 0#4)

@[simp] theorem errCode_err0 (e : Err) : errCode e.err0 = e.code := errCode_packErr0 _ _ _

/-- ERR0 in whole bytes: the code stands in the low byte, below four zero bits (R27). -/
theorem packErr0_eq (code : BitVec 4) (status count : Byte) :
    packErr0 code status count = 0#8 ++ count ++ status ++ (0#4 ++ code : Byte) := by
  simpa [packErr0] using (BitVec.append_assoc (x₁ := 0#8 ++ count ++ status) (x₂ := 0#4) (x₃ := code))

/-- Error entry with ERR0 written out in whole bytes (R27, R312). -/
theorem errorEntry_eq (e : Err) {code : Byte} (h : e.code.toNat = code.toNat) (s : State) :
    errorEntry e s = { s with
      err0 := 0#8 ++ e.count ++ e.status ++ code, err1 := e.err1, err2 := e.err2
      session := if e.faultsSession then .faulted else s.session, result := if e.keepsResult then s.result else []
      phase := .idle, timer := 0, ctxStep := 0, acc := [], busy := false } := by
  have hcode : (0#4 ++ e.code : Byte) = code :=
    BitVec.eq_of_toNat_eq ((BitVec.toNat_append 0#4 e.code).trans (by simp [h]))
  rw [← hcode, ← packErr0_eq]
  rfl

/-- Completion leaves the block at rest (R311). -/
theorem complete_resting {r : List Byte} (h : r.length ≤ 255) (s : State) : Resting (complete r s) := by
  have hcode : errCode (complete r s).err0 = 0 := errCode_packErr0 0 0 0
  refine ⟨⟨rfl, rfl, rfl, rfl, rfl⟩, h, .inl ⟨rfl, rfl, rfl⟩, fun hne => absurd hcode hne, fun herr => ?_,
    fun herr => ?_⟩
  · rw [hcode] at herr
    exact absurd herr (by decide)
  · rw [hcode] at herr
    exact absurd herr (by decide)

/-- Error entry after a lawful raise leaves the block at rest (R312). -/
theorem errorEntry_resting {e : Err} {s : State} (h : LawfulRaise e s) : Resting (errorEntry e s) where
  idle := ⟨rfl, rfl, rfl, rfl, rfl⟩
  resultFits := by
    cases e with
    | domainDecode => exact (h.domainDecode rfl).trans_le (by decide)
    | _ => exact Nat.zero_le 255
  outcome := .inr ⟨e, rfl, rfl, rfl⟩
  resultOfError _ := by
    rw [errorEntry_err0, errCode_err0]
    cases e with
    | domainDecode => exact h.domainDecode rfl
    | _ => rfl
  faulted herr := by
    rw [errorEntry_err0, errCode_err0] at herr
    cases e with
    | transport => rfl
    | wakeFailure => rfl
    | _ => exact absurd herr (by simp [Err.code])
  refused herr := by
    rw [errorEntry_err0, errCode_err0] at herr
    cases e with
    | notAwake => exact h.notAwake rfl
    | _ => exact absurd herr (by simp [Err.code])

/-- An operation that runs by the rules, its output within RESULT_CAP, leaves the block at rest. -/
theorem Reply.Runs.finish_resting {s : State} {r : Reply (List Byte)} (h : r.Runs s fun p _ => p.length ≤ 255) :
    Resting r.finish := by
  cases r with
  | val p t => exact complete_resting h.2 t
  | raised e t => exact errorEntry_resting h.2

/-! ### The instructions -/

/-- The meaning is an operation handed to the host port, whose body, begun with ACC empty, runs by the rules and answers
an output within RESULT_CAP. -/
def IsOperation (meaning : State → Host.Outcome State Fault Refusal) : Prop :=
  ∃ body : State → Reply (List Byte), (∀ s, meaning s = .next (operate body s)) ∧
    ∀ s, s.acc = [] → (body s).Runs s fun p _ => p.length ≤ 255

theorem isOperation_of_runs {body : State → Reply (List Byte)}
    (h : ∀ s, s.acc = [] → (body s).Runs s fun p _ => p.length ≤ 255) :
    IsOperation fun s => .next (operate body s) :=
  ⟨body, fun _ => rfl, h⟩

/-- An exchange that expects a payload within RESULT_CAP, run by the raw dispatcher. -/
theorem dispatch_fits {x : Exchange} (h : x.expect ≤ 255) (s : State) :
    (dispatch x s).Runs s fun p _ => p.length ≤ 255 :=
  (dispatch_runs x s).weaken fun _ _ hp => hp ▸ h

/-- An exchange that expects a payload within RESULT_CAP, run by a library operation. -/
theorem exchange_fits {x : Exchange} (h : x.expect ≤ 255) (s : State) :
    (exchange x s).Runs s fun p _ => p.length ≤ 255 :=
  (exchange_runs x s).weaken fun _ _ hp => hp.1 ▸ h

/-- A plan begun with ACC empty that expects payloads within RESULT_CAP together. -/
theorem gather_fits {xs : List Exchange} (h : (xs.map Exchange.expect).sum ≤ 255) {s : State} (hacc : s.acc = []) :
    (gather xs s).Runs s fun p _ => p.length ≤ 255 :=
  (gather_runs xs s).weaken fun _ _ hp => by simpa [hp, hacc] using h

theorem expectInRange_le {n : Byte} (h : expectInRange n = true) : n.toNat ≤ 255 :=
  Nat.le_trans (of_decide_eq_true h) (by decide)

@[simp] theorem readExchange_expect (c : Cfg) (zone : Byte) (addr : U16) : (readExchange c zone addr).expect = 4 := rfl
@[simp] theorem randomExchange_expect (c : Cfg) : (randomExchange c).expect = 32 := rfl
@[simp] theorem shaStartExchange_expect (c : Cfg) : (shaStartExchange c).expect = 0 := rfl
@[simp] theorem shaUpdateExchange_expect (c : Cfg) (chunk : List Byte) : (shaUpdateExchange c chunk).expect = 0 := rfl
@[simp] theorem shaEndExchange_expect (c : Cfg) (tail : List Byte) : (shaEndExchange c tail).expect = 32 := rfl
@[simp] theorem aesExchange_expect (c : Cfg) (mode : Byte) (slot : U16) (blk : List Byte) :
    (aesExchange c mode slot blk).expect = 16 := rfl

theorem serialPlan_expects (c : Cfg) : ((serialPlan c).map Exchange.expect).sum = 12 := rfl

theorem configPlan_expects (c : Cfg) : ((configPlan c).map Exchange.expect).sum = 128 := by
  simp [configPlan, Config.configWords, Function.comp_def]

/-- The start and the updates expect no payload, the end the digest (R92, R248). -/
theorem hashPlan_expects (c : Cfg) (data : List Byte) : ((hashPlan c data).map Exchange.expect).sum = 32 := by
  simp [hashPlan, Function.comp_def]

/-- Every instruction is an operation of at most 255 bytes of output (R32, R300). -/
theorem exec_isOperation (i : Instr) : IsOperation (exec i) := by
  cases i with
  | crcCompute data => exact isOperation_of_runs fun s _ => ⟨runCrc_inside data s, by simp⟩
  | crcValidate data =>
    refine isOperation_of_runs fun s _ => ⟨?_, by simp⟩
    split
    · exact .refl s
    · exact runCrc_inside _ s
  | frameBuild opc p1 p2 pl =>
    exact isOperation_of_runs fun s _ => build_runs opc p1 p2 pl s
  | wake =>
    exact isOperation_of_runs fun s _ => (send_runs _ _ s).andThen fun _ t _ _ =>
      ((recv_runs _ 4 _).of_inside (wait_inside _ t)).andThen fun buf u _ _ => acceptWake_runs buf u
  | sleep =>
    exact isOperation_of_runs fun s _ => (send_runs _ _ s).andThen fun _ t _ _ =>
      ⟨⟨rfl, rfl, rfl, nofun⟩, Nat.zero_le _⟩
  | transact opc p1 p2 pl n chk ex dly =>
    exact isOperation_of_runs fun s _ => require_runs fun h => dispatch_fits (expectInRange_le h) s
  | readWord zsel addr =>
    refine isOperation_of_runs fun s _ => ?_
    split
    · exact invalidArgument_runs s _
    · exact awakeGate_runs (exchange_fits (by simp) s)
  | readSerial =>
    exact isOperation_of_runs fun s hacc => awakeGate_runs <|
      (gather_fits (serialPlan_expects s.cfg ▸ by decide) hacc).output fun p _ hp =>
        (List.length_take_le 9 p).trans (by decide)
  | readConfigZone =>
    exact isOperation_of_runs fun s hacc => awakeGate_runs (gather_fits (configPlan_expects s.cfg ▸ by decide) hacc)
  | readLockStatus =>
    exact isOperation_of_runs fun s _ => awakeGate_runs <|
      (exchange_runs _ s).andThen fun word t _ _ => decodeLock_runs word t
  | random k =>
    exact isOperation_of_runs fun s _ => require_runs fun _ => awakeGate_runs <|
      (exchange_fits (x := randomExchange s.cfg) (by simp) s).output fun p _ hp =>
        (List.length_take_le' k.toNat p).trans hp
  | randomRange lo hi =>
    exact isOperation_of_runs fun s _ => require_runs fun _ => awakeGate_runs <|
      (exchange_runs _ s).output fun _ _ _ => by simp
  | hash data =>
    exact isOperation_of_runs fun s hacc => awakeGate_runs (gather_fits (hashPlan_expects s.cfg data ▸ by decide) hacc)
  | aesEncrypt slot blk =>
    exact isOperation_of_runs fun s _ => require_runs fun _ => awakeGate_runs (exchange_fits (by simp) s)
  | aesDecrypt slot blk =>
    exact isOperation_of_runs fun s _ => require_runs fun _ => awakeGate_runs (exchange_fits (by simp) s)
  | cmdRead zone addr => exact isOperation_of_runs fun s _ => dispatch_fits (by simp) s
  | cmdWrite p1 p2 pl n chk ex dly =>
    exact isOperation_of_runs fun s _ => require_runs fun h => dispatch_fits (expectInRange_le h) s
  | cmdRandom => exact isOperation_of_runs fun s _ => dispatch_fits (by simp) s
  | cmdShaStart => exact isOperation_of_runs fun s _ => dispatch_fits (by simp) s
  | cmdShaUpdate chunk => exact isOperation_of_runs fun s _ => dispatch_fits (by simp) s
  | cmdShaEnd tail => exact isOperation_of_runs fun s _ => dispatch_fits (by simp) s
  | cmdAesEnc slot blk => exact isOperation_of_runs fun s _ => dispatch_fits (by simp) s
  | cmdAesDec slot blk => exact isOperation_of_runs fun s _ => dispatch_fits (by simp) s
  | tokenWake =>
    exact isOperation_of_runs fun s _ => (send_runs _ _ s).andThen fun _ t _ _ => ⟨.refl t, Nat.zero_le _⟩
  | tokenSleep =>
    exact isOperation_of_runs fun s _ => (send_runs _ _ s).andThen fun _ t _ _ => ⟨.refl t, Nat.zero_le _⟩

theorem refuseUnassigned_isOperation : IsOperation refuseUnassigned :=
  isOperation_of_runs fun s _ => invalidArgument_runs s _

/-! ### Whole operations and whole steps -/

theorem IsOperation.resting {meaning : State → Host.Outcome State Fault Refusal} (h : IsOperation meaning) {s : State}
    (hs : s.busy = false) : ∃ t, meaning s = .next t ∧ Resting t := by
  obtain ⟨body, hbody, hruns⟩ := h
  exact ⟨_, hbody s, operate_of_idle body hs ▸ (hruns (accepted s) rfl).finish_resting⟩

theorem IsOperation.keeps {meaning : State → Host.Outcome State Fault Refusal} (h : IsOperation meaning) {s t : State}
    (ht : meaning s = .next t) : t.cfg = s.cfg ∧ t.requests = s.requests := by
  obtain ⟨body, hbody, hruns⟩ := h
  obtain rfl : operate body s = t := Host.Outcome.next.inj ((hbody s).symm.trans ht)
  cases hs : s.busy with
  | true => rw [operate_of_busy body hs]; exact ⟨rfl, rfl⟩
  | false =>
    have hin : Inside (accepted s) (body (accepted s)).state := (hruns (accepted s) rfl).inside
    rw [operate_of_idle body hs, finish_cfg, finish_requests]
    exact ⟨hin.cfg, hin.requests⟩

/-- Everything a step that goes on can be: no request to take, or an operation run in the state that has handed one over
(R66). -/
theorem step_next {s t : State} (h : step s = .next t) :
    t = s ∨ ∃ meaning, IsOperation meaning ∧ meaning (taken s) = .next t := by
  rw [step] at h
  split at h
  · exact .inl (Host.Outcome.next.inj h).symm
  · split at h
    · next i _ => exact .inr ⟨exec i, exec_isOperation i, h⟩
    · exact .inr ⟨refuseUnassigned, refuseUnassigned_isOperation, h⟩
    · cases h

/-! ### What the local operations and the sequencer's leave alone -/

/-- What the transport port writes is as it was. -/
structure PortKept (s t : State) : Prop where
  oracle : t.oracle = s.oracle
  asked : t.asked = s.asked
  trace : t.trace = s.trace
  rxBuf : t.rxBuf = s.rxBuf

theorem operate_portKept {body : State → Reply (List Byte)} (h : ∀ s, PortKept s (body s).state) (s : State) :
    PortKept s (operate body s) := by
  cases hs : s.busy with
  | true => rw [operate_of_busy body hs]; exact ⟨rfl, rfl, rfl, rfl⟩
  | false =>
    obtain ⟨horacle, hasked, htrace, hrx⟩ := h (accepted s)
    rw [operate_of_idle body hs]
    exact ⟨by simpa using horacle, by simpa using hasked, by simpa using htrace, by simpa using hrx⟩

theorem build_portKept (opc p1 : Byte) (p2 : U16) (pl : Payload) (s : State) :
    PortKept s (build opc p1 p2 pl s).state := by
  rw [build_eq]
  split <;> exact ⟨rfl, rfl, rfl, rfl⟩

/-- The checksum and framer operations make no bus event (R126, R128, R145). -/
theorem exec_local_portKept {i : Instr} (hi : isLocal i = true) {s t : State} (h : exec i s = .next t) :
    PortKept s t := by
  cases i with
  | crcCompute data =>
    obtain rfl := Host.Outcome.next.inj h
    exact operate_portKept (fun _ => ⟨rfl, rfl, rfl, rfl⟩) s
  | crcValidate data =>
    obtain rfl := Host.Outcome.next.inj h
    refine operate_portKept (fun s => ?_) s
    dsimp only [Reply.state]
    split <;> exact ⟨rfl, rfl, rfl, rfl⟩
  | frameBuild opc p1 p2 pl =>
    obtain rfl := Host.Outcome.next.inj h
    exact operate_portKept (build_portKept opc p1 p2 pl) s
  | _ => simp [isLocal, kindOf] at hi

/-- What the framer and the checksum engine write is as it was. -/
structure FramerKept (s t : State) : Prop where
  crcReg : t.crcReg = s.crcReg
  txBuf : t.txBuf = s.txBuf

theorem FramerKept.trans {s t u : State} (h : FramerKept s t) (h' : FramerKept t u) : FramerKept s u :=
  ⟨h'.crcReg.trans h.crcReg, h'.txBuf.trans h.txBuf⟩

theorem operate_framerKept {body : State → Reply (List Byte)} (h : ∀ s, FramerKept s (body s).state) (s : State) :
    FramerKept s (operate body s) := by
  cases hs : s.busy with
  | true => rw [operate_of_busy body hs]; exact ⟨rfl, rfl⟩
  | false =>
    obtain ⟨hcrc, htx⟩ := h (accepted s)
    rw [operate_of_idle body hs]
    exact ⟨by simpa using hcrc, by simpa using htx⟩

theorem send_framerKept (addr : BusAddr) (bytes : List Byte) (s : State) : FramerKept s (send addr bytes s).state := by
  rw [send_eq]
  dsimp only
  split <;> exact ⟨rfl, rfl⟩

theorem wait_framerKept (t : U32) (s : State) : FramerKept s (wait t s) := ⟨rfl, rfl⟩

theorem recv_framerKept (addr : BusAddr) (len : Nat) (s : State) : FramerKept s (recv addr len s).state := by
  rw [recv_eq]
  dsimp only
  split <;> exact ⟨rfl, rfl⟩

theorem acceptWake_framerKept (buf : List Byte) (s : State) : FramerKept s (acceptWake buf s).state := by
  rw [acceptWake]
  split <;> exact ⟨rfl, rfl⟩

/-- WAKE, SLEEP and the tokens build no frame and compute no checksum (R192, R194). -/
theorem exec_sequencer_framerKept {i : Instr} (hi : i = .wake ∨ i = .sleep ∨ i = .tokenWake ∨ i = .tokenSleep)
    {s t : State} (h : exec i s = .next t) : FramerKept s t := by
  rcases hi with rfl | rfl | rfl | rfl <;> obtain rfl := Host.Outcome.next.inj h
  · refine operate_framerKept (fun s => ?_) s
    refine andThen_state_of (P := FramerKept s) (send_framerKept _ _ s) fun _ t ht => ?_
    have hwait : FramerKept s (wait t.cfg.tWake t) := ht.trans (wait_framerKept _ t)
    exact andThen_state_of (P := FramerKept s) (hwait.trans (recv_framerKept _ 4 _)) fun buf u hu =>
      hu.trans (acceptWake_framerKept buf u)
  · refine operate_framerKept (fun s => ?_) s
    exact andThen_state_of (P := FramerKept s) (send_framerKept _ _ s) fun _ t ht => ⟨ht.crcReg, ht.txBuf⟩
  · refine operate_framerKept (fun s => ?_) s
    exact andThen_state_of (P := FramerKept s) (send_framerKept _ _ s) fun _ t ht => ht
  · refine operate_framerKept (fun s => ?_) s
    exact andThen_state_of (P := FramerKept s) (send_framerKept _ _ s) fun _ t ht => ht

end Sys2Proof.Machine
end

section
/-! PROOF. The statements about the state: what a step keeps, what an operation leaves alone, how it ends. -/

namespace Sys2Proof.Proofs

open Machine

/-- Settles O49: an operation run in a resting state ends in completion or in error entry after a lawful raise. -/
theorem stepsKeepResting : Obligations.StepsKeepResting := by
  intro s t hs h
  rcases step_next h with rfl | ⟨meaning, hop, hnext⟩
  · exact hs
  · obtain ⟨u, hu, hrest⟩ := hop.resting (s := taken s) hs.idle.1
    obtain rfl : u = t := Host.Outcome.next.inj (hu.symm.trans hnext)
    exact hrest

/-- Settles O15: an operation that was accepted leaves the block at rest. -/
theorem acceptedOperationsComplete : Obligations.AcceptedOperationsComplete := by
  intro i s hs
  obtain ⟨t, ht, hrest⟩ := (exec_isOperation i).resting hs
  exact ⟨t, ht, hrest.idle.1, hrest.outcome⟩

/-- Settles O16: `Resting` says so of the state an accepted operation leaves. -/
theorem errorsLeaveNoResult : Obligations.ErrorsLeaveNoResult := by
  intro i s t hs h
  obtain ⟨u, hu, hrest⟩ := (exec_isOperation i).resting hs
  obtain rfl : u = t := Host.Outcome.next.inj (hu.symm.trans h)
  exact ⟨hrest.resultOfError, hrest.resultFits⟩

/-- Settles O22, by what every operation, a local one and one of the sequencer keep. -/
theorem operationsLeaveTheRestAlone : Obligations.OperationsLeaveTheRestAlone := by
  intro i s t h
  obtain ⟨hcfg, hrequests⟩ := (exec_isOperation i).keeps h
  refine ⟨hcfg, hrequests, fun hi => ?_, fun hi => ?_⟩
  · obtain ⟨horacle, hasked, htrace, hrx⟩ := exec_local_portKept hi h
    exact ⟨horacle, hasked, htrace, hrx⟩
  · obtain ⟨hcrc, htx⟩ := exec_sequencer_framerKept hi h
    exact ⟨hcrc, htx⟩

/-- Settles O50: a step that goes on is an operation, or nothing. -/
theorem configurationNeverChanges : Obligations.ConfigurationNeverChanges := by
  intro s t h
  rcases step_next h with rfl | ⟨meaning, hop, hnext⟩
  · rfl
  · exact (hop.keeps hnext).1

/-- Settles O55: the block a step leaves stands under the CFG the step began with, since no step writes it. -/
theorem configurationIsAParameter : Obligations.ConfigurationIsAParameter := by
  refine ⟨fun c b => ?_, fun _ => rfl, rfl⟩
  change step (b.under c) = outcomeUnder c (blockOf (step (b.under c)))
  cases h : step (b.under c) with
  | next t =>
    have hcfg : t.cfg = c := configurationNeverChanges (b.under c) t h
    exact congrArg Host.Outcome.next (hcfg ▸ (toBlock_under t).symm)
  | fault f => rfl
  | refused r => rfl

/-- Settles O56: every part keeps `Inside`, which keeps `InProgress`. -/
theorem phaseIsIdleExactlyAtRest : Obligations.PhaseIsIdleExactlyAtRest := by
  refine ⟨fun _ => ⟨⟨rfl, nofun⟩, rfl⟩, fun body _ => operate_of_idle body, fun s hs => ?_,
    fun r => ⟨finish_busy r, finish_phase r⟩⟩
  exact
    ⟨fun addr bytes => ⟨(send_runs addr bytes s).inside.inProgress hs, send_phase addr bytes s⟩,
     fun t => ⟨(wait_inside t s).inProgress hs, wait_phase t s⟩,
     fun addr len => ⟨(recv_runs addr len s).inside.inProgress hs, recv_phase addr len s⟩,
     fun bytes => (runCrc_inside bytes s).inProgress hs,
     fun opc p1 p2 pl => (build_runs opc p1 p2 pl s).inside.inProgress hs,
     fun n check exact => (receive_runs n check exact s).inside.inProgress hs,
     fun x => ⟨(exchange_runs x s).inside.inProgress hs, (dispatch_runs x s).inside.inProgress hs⟩,
     fun xs => (gather_runs xs s).inside.inProgress hs,
     fun buf => (acceptWake_runs buf s).inside.inProgress hs,
     fun word => (decodeLock_runs word s).inside.inProgress hs⟩

/-- Settles O1: the state that has handed the request over is `taken`. -/
theorem stepRunsTheDecodedInstruction : Obligations.StepRunsTheDecodedInstruction := by
  intro s r more i hr hi
  have htaken : taken s = { s with requests := more } := by rw [taken, hr]; rfl
  rw [step, hr]
  simp only [fetched, hi, htaken]

/-- Settles O8: STAT depends on SESSION and BUSY alone, so it has six values. -/
theorem statusWordLayout : Obligations.StatusWordLayout := by
  refine ⟨fun s => ⟨?_, ?_, ?_⟩, rfl, rfl, rfl⟩
  all_goals
    unfold stat
    cases s.session <;> cases s.busy <;> decide

/-- Settles O9, by one equation for all errors. -/
theorem errorEntryRecords : Obligations.ErrorEntryRecords := by
  intro s entry fields
  exact
    ⟨errorEntry_eq .invalidArgument (code := 1) rfl s,
     errorEntry_eq .notAwake (code := 2) rfl s,
     fun x => errorEntry_eq (.transport x) (code := 3) rfl s,
     fun c => errorEntry_eq (.malformedFrame c) (code := 4) rfl s,
     fun c => errorEntry_eq (.insufficientData c) (code := 5) rfl s,
     fun rx calculated => errorEntry_eq (.integrity rx calculated) (code := 6) rfl s,
     fun st => errorEntry_eq (.deviceStatus st) (code := 7) rfl s,
     errorEntry_eq .emptySuccess (code := 8) rfl s,
     fun c st => errorEntry_eq (.wakeFailure c st) (code := 9) rfl s,
     errorEntry_eq .domainDecode (code := 10) rfl s⟩

/-- Settles O11, field by field. -/
theorem resetGivesTheResetValues : Obligations.ResetGivesTheResetValues :=
  ⟨rfl, rfl, rfl, rfl, rfl, rfl, rfl, rfl, rfl, rfl, rfl, rfl, rfl, rfl⟩

/-- Settles O48: every register is 0 and no outcome has been recorded. -/
theorem resetIsResting : Obligations.ResetIsResting where
  idle := ⟨rfl, rfl, rfl, rfl, rfl⟩
  resultFits := Nat.zero_le 255
  outcome := .inl ⟨rfl, rfl, rfl⟩
  resultOfError hne := absurd rfl hne
  faulted herr := absurd herr (by decide)
  refused herr := absurd herr (by decide)

end Sys2Proof.Proofs
end

section
/-! SUPPORT. Two runs of one operation side by side: what of the state an operation reads, and that two blocks which agree
on it go on agreeing, put the same events on the port and end alike. -/

namespace Sys2Proof.Machine

/-! ### Reading outcomes -/

/-- A way to read the transport's outcomes under a CFG that keeps which of them are FATAL (R63). -/
structure Reading where
  cfg : Cfg
  read : XOutcome → XOutcome
  fatal : ∀ o code, classify cfg (read o) = .fatal code ↔ classify cfg o = .fatal code

/-- Every outcome as it is. -/
def Reading.asWritten (c : Cfg) : Reading := ⟨c, id, fun _ _ => .rfl⟩

theorem classify_forgive (c : Cfg) (o : XOutcome) (code : U32) :
    classify c (forgive c o) = .fatal code ↔ classify c o = .fatal code := by
  cases o with
  | ok => rfl
  | err k => by_cases h : k = c.xportIo ∨ k = c.xportNoresp <;> simp [forgive, classify, h]

theorem forgive_forgive (c : Cfg) (o : XOutcome) : forgive c (forgive c o) = forgive c o := by
  cases o with
  | ok => rfl
  | err k => by_cases h : k = c.xportIo ∨ k = c.xportNoresp <;> simp [forgive, h]

/-- TOLERATED read as OK (R63). -/
def Reading.forgiving (c : Cfg) : Reading := ⟨c, forgive c, classify_forgive c⟩

theorem Reading.fatal_congr (R : Reading) {o o' : XOutcome} (h : R.read o = R.read o') (code : U32) :
    classify R.cfg o = .fatal code ↔ classify R.cfg o' = .fatal code := by
  rw [← R.fatal o, h, R.fatal o']

/-- An answer of the script with its outcome read. -/
def Reading.answer (R : Reading) (a : Answer) : Answer := { a with outcome := R.read a.outcome }

/-- An event with its outcome read. -/
def Reading.event (R : Reading) : Event → Event
  | .send addr bytes o => .send addr bytes (R.read o)
  | .wait ticks => .wait ticks
  | .recv addr len o bytes => .recv addr len (R.read o) bytes

theorem asWritten_answer (c : Cfg) : (Reading.asWritten c).answer = id := rfl

theorem asWritten_event (c : Cfg) : (Reading.asWritten c).event = id := by
  funext e
  cases e <;> rfl

theorem forgiving_event (c : Cfg) : (Reading.forgiving c).event = forgiveEvent c := by
  funext e
  cases e <;> rfl

/-- Reading the forgiven script again changes nothing. -/
theorem forgiving_answer_forgiven (s : State) :
    (forgiven s).oracle.map (Reading.forgiving s.cfg).answer = s.oracle.map (Reading.forgiving s.cfg).answer := by
  change (s.oracle.map (Reading.forgiving s.cfg).answer).map _ = _
  rw [List.map_map]
  exact List.map_congr_left fun a _ => congrArg (fun o => { a with outcome := o }) (forgive_forgive s.cfg a.outcome)

/-! ### Two states of two runs -/

/-- The event is one an operation may put on the port: a send to BUS_ADDR, or of the wake token to WAKE_ADDR; a receive from
BUS_ADDR of exactly the bytes asked for, at least 4 (R51, R62, R89, R161). -/
def OnPort (c : Cfg) : Event → Prop
  | .send addr bytes _ => addr = c.busAddr ∨ (addr = c.wakeAddr ∧ bytes = [Config.wakeToken])
  | .wait _ => True
  | .recv addr len _ bytes => addr = c.busAddr ∧ bytes.length = len ∧ 4 ≤ len

/-- Two runs, begun with the traces b and b', stand alike: they agree on all that an operation reads (SESSION, CFG, ACC and,
as R reads it, the oracle), and have since added the same events as R reads them, all of them the port's. -/
structure Alike (R : Reading) (b b' : List Event) (s s' : State) : Prop where
  left : s.cfg = R.cfg
  right : s'.cfg = R.cfg
  session : s.session = s'.session
  acc : s.acc = s'.acc
  oracle : s.oracle.map R.answer = s'.oracle.map R.answer
  asked : s.asked = s'.asked
  events : ∃ ev ev', s.trace = b ++ ev ∧ s'.trace = b' ++ ev' ∧ ev.map R.event = ev'.map R.event ∧
    ∀ e ∈ ev, OnPort R.cfg e

/-- Two replies alike: both runs go on with one value, or both raise one error, which keeps no RESULT that differs (R312). -/
inductive Reply.Alike {α : Type} (R : Reading) (b b' : List Event) : Reply α → Reply α → Prop
  | val {a a' : α} {t t' : State} (value : a = a') (states : Machine.Alike R b b' t t') :
    Alike R b b' (.val a t) (.val a' t')
  | raised {e : Err} {t t' : State} (states : Machine.Alike R b b' t t')
    (result : e.keepsResult = true → t.result = t'.result) : Alike R b b' (.raised e t) (.raised e t')

section
variable {R : Reading} {b b' : List Event} {s s' : State}

/-! ### What the oracle answers, what goes into the trace -/

theorem Alike.later (h : Alike R b b' s s') (k : Nat) : Alike R b b' (later k s) (later k s') :=
  { h with
    oracle := by simpa [Machine.later, List.map_drop] using congrArg (List.drop k) h.oracle
    asked := congrArg (· + k) h.asked }

/-- The next answer of the oracle is one outcome as R reads it, with the same bytes (R63). -/
theorem Alike.answer (h : Alike R b b' s s') :
    R.read (answerOutcome s) = R.read (answerOutcome s') ∧ ∀ len, answerBytes s len = answerBytes s' len := by
  have horacle := h.oracle
  cases hs : s.oracle with
  | nil =>
    have hs' : s'.oracle = [] := by simpa [hs] using horacle.symm
    exact ⟨congrArg R.read (answerOutcome_congr (hs.trans hs'.symm) h.asked),
      answerBytes_congr (hs.trans hs'.symm) h.asked⟩
  | cons a more =>
    rw [hs, List.map_cons] at horacle
    obtain ⟨a', more', hs', ha, -⟩ := List.map_eq_cons_iff.mp horacle.symm
    obtain ⟨houtcome, hbytes⟩ := (Answer.mk.injEq ..).mp ha
    exact ⟨by simp only [answerOutcome, hs, hs', houtcome], fun len => by
      simp only [answerBytes, hs, hs', hbytes, h.asked]⟩

theorem Alike.outcomeAt (h : Alike R b b' s s') (k : Nat) : R.read (outcomeAt s k) = R.read (outcomeAt s' k) :=
  (h.later k).answer.1

theorem Alike.bytesAt (h : Alike R b b' s s') (k len : Nat) : bytesAt s k len = bytesAt s' k len :=
  (h.later k).answer.2 len

theorem Alike.fatal_iff (h : Alike R b b' s s') (k : Nat) (code : U32) :
    classify s.cfg (Machine.outcomeAt s k) = .fatal code ↔ classify s'.cfg (Machine.outcomeAt s' k) = .fatal code := by
  rw [h.left, h.right]
  exact R.fatal_congr (h.outcomeAt k) code

theorem Alike.record (h : Alike R b b' s s') {e e' : Event} (hread : R.event e = R.event e') (hport : OnPort R.cfg e) :
    Alike R b b' (record e s) (record e' s') := by
  obtain ⟨ev, ev', hs, hs', hmap, hall⟩ := h.events
  refine { h with events := ⟨ev ++ [e], ev' ++ [e'], ?_, ?_, ?_, ?_⟩ }
  · rw [record_trace, hs, List.append_assoc]
  · rw [record_trace, hs', List.append_assoc]
  · rw [List.map_append, List.map_append, hmap, List.map_singleton, List.map_singleton, hread]
  · simpa [or_imp, forall_and] using ⟨hall, hport⟩

/-! ### Going on after a part, the gates -/

theorem Reply.Alike.andThen {α β : Type} {r r' : Reply α} {f f' : α → State → Reply β} (h : r.Alike R b b' r')
    (hf : ∀ a t t', Machine.Alike R b b' t t' → (f a t).Alike R b b' (f' a t')) :
    (r.andThen f).Alike R b b' (r'.andThen f') := by
  cases h with
  | val value states => exact value ▸ hf _ _ _ states
  | raised states result => exact .raised states result

theorem Reply.Alike.output {r r' : Reply (List Byte)} (h : r.Alike R b b' r') (f : List Byte → List Byte) :
    (r.output f).Alike R b b' (r'.output f) :=
  h.andThen fun _ _ _ states => .val rfl states

/-- An error that keeps no RESULT, raised in both runs. -/
theorem Alike.raise {α : Type} (h : Alike R b b' s s') {e : Err} (he : e.keepsResult = false) :
    (Reply.raised e s : Reply α).Alike R b b' (.raised e s') :=
  .raised h fun hkeeps => absurd (he.symm.trans hkeeps) nofun

theorem require_alike (p : Bool) {body body' : State → Reply (List Byte)} (h : Alike R b b' s s')
    (hbody : (body s).Alike R b b' (body' s')) : (require p body s).Alike R b b' (require p body' s') := by
  rw [require_eq, require_eq]
  split
  · exact hbody
  · exact h.raise rfl

theorem awakeGate_alike {body body' : State → Reply (List Byte)} (h : Alike R b b' s s')
    (hbody : (body s).Alike R b b' (body' s')) : (awakeGate body s).Alike R b b' (awakeGate body' s') := by
  rw [awakeGate_eq, awakeGate_eq, h.session]
  split
  · exact hbody
  · exact h.raise rfl

/-! ### The transport port, the settle timer -/

theorem recv_of_fatal {addr : BusAddr} {len : Nat} {s : State} {code : U32}
    (h : classify s.cfg (outcomeAt s 0) = .fatal code) :
    recv addr len s = .raised (.transport code)
      (record (.recv addr len (outcomeAt s 0) (bytesAt s 0 len)) { later 1 s with phase := .recv }) := by
  rw [recv_eq]
  simp only [h]
  rfl

theorem recv_of_goesOn {addr : BusAddr} {len : Nat} {s : State}
    (h : ∀ code, classify s.cfg (outcomeAt s 0) ≠ .fatal code) :
    recv addr len s = .val (bytesAt s 0 len)
      { record (.recv addr len (outcomeAt s 0) (bytesAt s 0 len)) { later 1 s with phase := .recv } with
        rxBuf := bytesAt s 0 len } := by
  rw [recv_eq]
  cases hc : classify s.cfg (outcomeAt s 0) with
  | fatal code => exact absurd hc (h code)
  | ok => rfl
  | tolerated => rfl

theorem send_alike {addr : BusAddr} {bytes : List Byte}
    (haddr : addr = R.cfg.busAddr ∨ (addr = R.cfg.wakeAddr ∧ bytes = [Config.wakeToken])) (h : Alike R b b' s s') :
    (send addr bytes s).Alike R b b' (send addr bytes s') := by
  have hsent : Alike R b b' (record (.send addr bytes (outcomeAt s 0)) { later 1 s with phase := .send })
      (record (.send addr bytes (outcomeAt s' 0)) { later 1 s' with phase := .send }) :=
    { (h.later 1).record (e := .send addr bytes (outcomeAt s 0)) (e' := .send addr bytes (outcomeAt s' 0))
        (congrArg (Event.send addr bytes) (h.outcomeAt 0)) haddr with }
  by_cases hfatal : ∃ code, classify s.cfg (outcomeAt s 0) = .fatal code
  · obtain ⟨code, hcode⟩ := hfatal
    rw [send_of_fatal hcode, send_of_fatal ((h.fatal_iff 0 code).mp hcode)]
    exact hsent.raise rfl
  · have hgoes := not_exists.mp hfatal
    rw [send_of_goesOn hgoes, send_of_goesOn fun code => mt (h.fatal_iff 0 code).mpr (hgoes code)]
    exact .val rfl hsent

theorem recv_alike {addr : BusAddr} {len : Nat} (haddr : addr = R.cfg.busAddr) (hlen : 4 ≤ len)
    (h : Alike R b b' s s') : (recv addr len s).Alike R b b' (recv addr len s') := by
  have hbytes : bytesAt s 0 len = bytesAt s' 0 len := h.bytesAt 0 len
  have hreceived : Alike R b b'
      (record (.recv addr len (outcomeAt s 0) (bytesAt s 0 len)) { later 1 s with phase := .recv })
      (record (.recv addr len (outcomeAt s' 0) (bytesAt s' 0 len)) { later 1 s' with phase := .recv }) :=
    { (h.later 1).record (e := .recv addr len (outcomeAt s 0) (bytesAt s 0 len))
        (e' := .recv addr len (outcomeAt s' 0) (bytesAt s' 0 len))
        (congrArg₂ (Event.recv addr len) (h.outcomeAt 0) hbytes) ⟨haddr, answerBytes_length _ len, hlen⟩ with }
  by_cases hfatal : ∃ code, classify s.cfg (outcomeAt s 0) = .fatal code
  · obtain ⟨code, hcode⟩ := hfatal
    rw [recv_of_fatal hcode, recv_of_fatal ((h.fatal_iff 0 code).mp hcode)]
    exact hreceived.raise rfl
  · have hgoes := not_exists.mp hfatal
    rw [recv_of_goesOn hgoes, recv_of_goesOn fun code => mt (h.fatal_iff 0 code).mpr (hgoes code)]
    exact .val hbytes { hreceived with }

theorem sendWakeToken_alike (h : Alike R b b' s s') : (sendWakeToken s).Alike R b b' (sendWakeToken s') := by
  rw [sendWakeToken, sendWakeToken, h.left, h.right]
  exact send_alike (.inr ⟨rfl, rfl⟩) h

theorem sendSleepToken_alike (h : Alike R b b' s s') : (sendSleepToken s).Alike R b b' (sendSleepToken s') := by
  rw [sendSleepToken, sendSleepToken, h.left, h.right]
  exact send_alike (.inl rfl) h

theorem wait_alike {ticks : U32} (h : Alike R b b' s s') : Alike R b b' (wait ticks s) (wait ticks s') :=
  { h.record (e := .wait ticks) rfl trivial with }

/-! ### The framer and the reader -/

theorem build_alike (opc p1 : Byte) (p2 : U16) (pl : Payload) (h : Alike R b b' s s') :
    (build opc p1 p2 pl s).Alike R b b' (build opc p1 p2 pl s') := by
  rw [build_eq, build_eq, h.left, h.right]
  split
  · exact .val rfl { h with left := rfl, right := rfl }
  · exact h.raise rfl

/-- The checks before the checksum raise no error that keeps a RESULT (R163-R167). -/
theorem checkShape_error_keepsResult {n : Nat} {exact : Bool} {buf : List Byte} {e : Err}
    (h : checkShape n exact buf = .error e) : e.keepsResult = false := by
  simp only [checkShape] at h
  repeat' split at h
  all_goals cases h <;> rfl

/-- The checksum step compares with the CRCREG it has just computed, not with what stood there (R168). -/
theorem checkTrailer_alike (check : Bool) (n : Nat) (resp buf : List Byte) (h : Alike R b b' s s') :
    (checkTrailer check n resp buf s).Alike R b b' (checkTrailer check n resp buf s') := by
  cases check with
  | false => exact .val rfl h
  | true =>
    have hrun : Alike R b b' (runCrc (covered resp) s) (runCrc (covered resp) s') := { h with }
    by_cases htrailer : trailer resp = crc16 (covered resp)
    · simpa [checkTrailer, runCrc, htrailer] using Reply.Alike.val (a := responsePayload n buf) rfl hrun
    · simpa [checkTrailer, runCrc, htrailer] using hrun.raise rfl

theorem receive_alike (n : Nat) (check exact : Bool) (h : Alike R b b' s s') :
    (receive n check exact s).Alike R b b' (receive n check exact s') := by
  rw [receive, receive, h.left, h.right]
  refine (recv_alike rfl (Nat.le_max_left 4 _) h).andThen fun buf t t' ht => ?_
  cases hshape : checkShape n exact buf with
  | error e => exact ht.raise (checkShape_error_keepsResult hshape)
  | ok shape => cases shape with
    | statusOnly => exact .val rfl ht
    | data c => exact checkTrailer_alike check n (delimited c buf) buf ht

/-! ### The exchange, the plan, the dispatcher -/

theorem exchange_alike {x x' : Exchange} (hx : x = x') (h : Alike R b b' s s') :
    (exchange x s).Alike R b b' (exchange x' s') := by
  subst hx
  refine (build_alike x.opc x.p1 x.p2 x.pl h).andThen fun frame t t' ht => ?_
  rw [ht.left, ht.right]
  refine (send_alike (.inl rfl) ht).andThen fun _ u u' hu => ?_
  exact (receive_alike x.expect x.check x.exact (wait_alike hu)).andThen fun p v v' hv => .val rfl { hv with }

theorem gather_alike {xs xs' : List Exchange} (hxs : xs = xs') (h : Alike R b b' s s') :
    (gather xs s).Alike R b b' (gather xs' s') := by
  subst hxs
  induction xs generalizing s s' with
  | nil => exact .val h.acc h
  | cons x xs ih =>
    exact (exchange_alike rfl h).andThen fun p t t' ht => ih { ht with acc := congrArg (· ++ p) ht.acc }

theorem dispatch_alike {x x' : Exchange} (hx : x = x') (h : Alike R b b' s s') :
    (dispatch x s).Alike R b b' (dispatch x' s') := by
  subst hx
  exact (build_alike x.opc x.p1 x.p2 x.pl h).andThen fun _ t t' ht => awakeGate_alike ht (exchange_alike rfl ht)

/-! ### The ends of WAKE and READ_LOCK_STATUS -/

theorem acceptWake_alike (buf : List Byte) (h : Alike R b b' s s') :
    (acceptWake buf s).Alike R b b' (acceptWake buf s') := by
  rw [acceptWake, acceptWake, h.left, h.right]
  split
  · exact .val rfl { h with left := rfl, right := rfl, session := rfl }
  · exact h.raise rfl

/-- The RESULT that DOMAIN_DECODE keeps is the pair just read (R310). -/
theorem decodeLock_alike (word : List Byte) (h : Alike R b b' s s') :
    (decodeLock word s).Alike R b b' (decodeLock word s') := by
  rw [decodeLock, decodeLock, h.left, h.right]
  split
  · exact .val rfl h
  · exact .raised { h with left := rfl, right := rfl } fun _ => rfl

/-! ### How an operation ends -/

/-- Operations that reply alike end alike, with one outcome (R311, R312). -/
theorem Reply.Alike.finish {r r' : Reply (List Byte)} (h : r.Alike R b b' r') :
    Machine.Alike R b b' r.finish r'.finish ∧ SameOutcome r.finish r'.finish := by
  cases h with
  | val value states =>
    subst value
    exact ⟨{ states with acc := rfl }, states.session, rfl, rfl, rfl, rfl⟩
  | @raised e t t' states result =>
    have hsession : (errorEntry e t).session = (errorEntry e t').session := by
      rw [errorEntry_session, errorEntry_session, states.session]
    have hresult : (errorEntry e t).result = (errorEntry e t').result := by
      rw [errorEntry_result, errorEntry_result]
      split
      · next hkeeps => exact result hkeeps
      · rfl
    exact ⟨{ states with acc := rfl, session := hsession }, hsession, rfl, rfl, rfl, hresult⟩

end

/-! ### The instructions -/

/-- The meaning is an operation handed to the host port, whose body replies alike in states that stand alike. -/
def RunsAlike (meaning : State → Host.Outcome State Fault Refusal) : Prop :=
  ∃ body : State → Reply (List Byte), (∀ s, meaning s = .next (operate body s)) ∧
    ∀ R b b' s s', Alike R b b' s s' → (body s).Alike R b b' (body s')

theorem runsAlike_of_body {body : State → Reply (List Byte)}
    (h : ∀ {R b b' s s'}, Alike R b b' s s' → (body s).Alike R b b' (body s')) :
    RunsAlike fun s => .next (operate body s) :=
  ⟨body, fun _ => rfl, fun _ _ _ _ _ => h⟩

/-- A wire command, its exchange a function of CFG. -/
theorem dispatch_runsAlike (x : Cfg → Exchange) : RunsAlike fun s => .next (operate (fun s => dispatch (x s.cfg) s) s) :=
  runsAlike_of_body fun h => dispatch_alike (congrArg x (h.left.trans h.right.symm)) h

theorem exec_runsAlike (i : Instr) : RunsAlike (exec i) := by
  cases i with
  | crcCompute data => exact runsAlike_of_body fun h => .val rfl { h with }
  | crcValidate data =>
    refine runsAlike_of_body fun h => .val rfl ?_
    split
    · exact h
    · exact { h with }
  | frameBuild opc p1 p2 pl => exact runsAlike_of_body (build_alike opc p1 p2 pl)
  | wake =>
    refine runsAlike_of_body fun h => (sendWakeToken_alike h).andThen fun _ t t' ht => ?_
    rw [ht.left, ht.right]
    exact (recv_alike rfl le_rfl (wait_alike ht)).andThen fun buf u u' => acceptWake_alike buf
  | sleep =>
    refine runsAlike_of_body fun h => (sendSleepToken_alike h).andThen fun _ t t' ht => ?_
    rw [ht.left, ht.right]
    exact .val rfl { wait_alike ht with session := rfl }
  | transact opc p1 p2 pl n chk ex dly =>
    exact runsAlike_of_body fun h => require_alike _ h (dispatch_alike rfl h)
  | readWord zsel addr =>
    refine runsAlike_of_body fun h => ?_
    rw [h.left, h.right]
    split
    · exact h.raise rfl
    · exact awakeGate_alike h (exchange_alike rfl h)
  | readSerial =>
    exact runsAlike_of_body fun h => awakeGate_alike h ((gather_alike (by rw [h.left, h.right]) h).output _)
  | readConfigZone =>
    exact runsAlike_of_body fun h => awakeGate_alike h (gather_alike (by rw [h.left, h.right]) h)
  | readLockStatus =>
    exact runsAlike_of_body fun h => awakeGate_alike h <|
      (exchange_alike (by rw [h.left, h.right]) h).andThen fun word t t' => decodeLock_alike word
  | random k =>
    exact runsAlike_of_body fun h => require_alike _ h <| awakeGate_alike h <|
      (exchange_alike (by rw [h.left, h.right]) h).output _
  | randomRange lo hi =>
    exact runsAlike_of_body fun h => require_alike _ h <| awakeGate_alike h <|
      (exchange_alike (by rw [h.left, h.right]) h).output _
  | hash data =>
    exact runsAlike_of_body fun h => awakeGate_alike h (gather_alike (by rw [h.left, h.right]) h)
  | aesEncrypt slot blk =>
    exact runsAlike_of_body fun h => require_alike _ h <| awakeGate_alike h <|
      exchange_alike (by rw [h.left, h.right]) h
  | aesDecrypt slot blk =>
    exact runsAlike_of_body fun h => require_alike _ h <| awakeGate_alike h <|
      exchange_alike (by rw [h.left, h.right]) h
  | cmdRead zone addr => exact dispatch_runsAlike (readExchange · zone addr)
  | cmdWrite p1 p2 pl n chk ex dly =>
    exact runsAlike_of_body fun h => require_alike _ h (dispatch_alike (by rw [h.left, h.right]) h)
  | cmdRandom => exact dispatch_runsAlike randomExchange
  | cmdShaStart => exact dispatch_runsAlike shaStartExchange
  | cmdShaUpdate chunk => exact dispatch_runsAlike (shaUpdateExchange · chunk)
  | cmdShaEnd tail => exact dispatch_runsAlike (shaEndExchange · tail)
  | cmdAesEnc slot blk => exact dispatch_runsAlike (aesExchange · 0x00 slot blk)
  | cmdAesDec slot blk => exact dispatch_runsAlike (aesExchange · 0x01 slot blk)
  | tokenWake => exact runsAlike_of_body fun h => (sendWakeToken_alike h).andThen fun _ t t' => .val rfl
  | tokenSleep => exact runsAlike_of_body fun h => (sendSleepToken_alike h).andThen fun _ t t' => .val rfl

/-- Two idle blocks with one SESSION and CFG, and one oracle as R reads it, run an instruction alike (R65, R70). -/
theorem exec_alike (R : Reading) (i : Instr) {s s' : State} (hidle : s.busy = false) (hidle' : s'.busy = false)
    (hleft : s.cfg = R.cfg) (hright : s'.cfg = R.cfg) (hsession : s.session = s'.session)
    (horacle : s.oracle.map R.answer = s'.oracle.map R.answer) (hasked : s.asked = s'.asked) :
    ∃ t t', exec i s = .next t ∧ exec i s' = .next t' ∧ Alike R s.trace s'.trace t t' ∧ SameOutcome t t' := by
  obtain ⟨body, hbody, halike⟩ := exec_runsAlike i
  have hstart : Alike R s.trace s'.trace (accepted s) (accepted s') :=
    { left := hleft, right := hright, session := hsession, acc := rfl, oracle := horacle, asked := hasked
      events := ⟨[], [], (List.append_nil _).symm, (List.append_nil _).symm, rfl, nofun⟩ }
  have hend := (halike _ _ _ _ _ hstart).finish
  rw [← operate_of_idle body hidle, ← operate_of_idle body hidle'] at hend
  exact ⟨_, _, hbody s, hbody s', hend⟩

theorem exec_of_busy (i : Instr) {s : State} (h : s.busy = true) : exec i s = .next s := by
  obtain ⟨body, hbody, -⟩ := exec_runsAlike i
  rw [hbody, operate_of_busy body h]

/-! ### A plan whose every exchange is answered -/

/-- A plan run to its end by completion with the gathered outputs (R240). -/
theorem gather_finish_complete {xs : List Exchange} {s : State} (h : ∀ x ∈ xs, PayloadTaken s.cfg x.pl) :
    (gather xs s).finish = afterPlan complete xs s.acc (rested s) := by
  have hval : (gather xs s).andThen .val = gather xs s := by cases gather xs s <;> rfl
  rw [← hval]
  exact gather_finish .val (fun _ _ => rfl) xs s h

theorem readExchange_taken (c : Cfg) (zone : Byte) (addr : U16) : PayloadTaken c (readExchange c zone addr).pl := .inl rfl

/-- The payloads of a plan's answers have the lengths its exchanges expect (R160). -/
theorem answers_lengths {s : State} {xs : List Exchange} {ps : List (List Byte)} (h : Answers s xs ps) :
    ps.map List.length = xs.map Exchange.expect := by
  induction xs generalizing s ps with
  | nil => cases ps with
    | nil => rfl
    | cons => exact h.elim
  | cons x xs ih => cases ps with
    | nil => exact h.elim
    | cons p ps =>
      obtain ⟨-, -, hverdict, hrest⟩ := h
      rw [List.map_cons, List.map_cons, ih hrest, verdict_length (exchangeBytes_length x s) hverdict]

/-- Byte j of word w stands at place n * w + j of words of n bytes each, one after another (R53). -/
theorem flatten_getElem?_of_length {α : Type} {n j : Nat} (hj : j < n) {words : List (List α)}
    (hn : ∀ w ∈ words, w.length = n) {w : Nat} {word : List α} (hw : words[w]? = some word) :
    words.flatten[n * w + j]? = word[j]? := by
  induction words generalizing w with
  | nil => cases hw
  | cons first more ih =>
    have hfirst : first.length = n := hn first List.mem_cons_self
    cases w with
    | zero =>
      obtain rfl : first = word := by simpa using hw
      rw [List.flatten_cons, Nat.mul_zero, Nat.zero_add, List.getElem?_append_left (hfirst ▸ hj)]
    | succ w =>
      have hplace : n * (w + 1) + j - first.length = n * w + j := by rw [hfirst, Nat.mul_succ]; omega
      rw [List.flatten_cons, List.getElem?_append_right (by rw [hfirst, Nat.mul_succ]; omega), hplace]
      exact ih (fun w hw => hn w (List.mem_cons_of_mem _ hw)) (by simpa using hw)

end Sys2Proof.Machine
end

section
/-! PROOF. The statements about the transport port and the block's memory: what an operation depends on, what it puts on the
port, the configuration zone. -/

namespace Sys2Proof.Proofs

open Machine

/-- Settles O53: the two runs stand alike, every outcome read as it is written. -/
theorem staleStateDoesNotMatter : Obligations.StaleStateDoesNotMatter := by
  intro i s s' hidle hidle' hsession hcfg horacle hasked
  obtain ⟨t, t', ht, ht', halike, hsame⟩ := exec_alike (.asWritten s.cfg) i hidle hidle' rfl hcfg.symm hsession
    (congrArg _ horacle) hasked
  obtain ⟨ev, ev', htrace, htrace', hev, -⟩ := halike.events
  have hend := halike.oracle
  rw [asWritten_event, List.map_id, List.map_id] at hev
  rw [asWritten_answer, List.map_id, List.map_id] at hend
  refine ⟨t, t', ht, ht', hsame, ?_, hend, halike.asked⟩
  rw [newEvents, newEvents, htrace, htrace', List.drop_left, List.drop_left, hev]

/-- Settles O54: the block and the forgiven one stand alike where TOLERATED is read as OK. -/
theorem toleratedCountsAsOk : Obligations.ToleratedCountsAsOk := by
  intro i s t ht
  cases hs : s.busy with
  | true =>
    obtain rfl : s = t := Host.Outcome.next.inj ((exec_of_busy i hs).symm.trans ht)
    exact ⟨forgiven s, exec_of_busy i hs, ⟨rfl, rfl, rfl, rfl, rfl⟩, rfl⟩
  | false =>
    obtain ⟨u, t', hu, ht', halike, hsame⟩ :=
      exec_alike (.forgiving s.cfg) i (s' := forgiven s) hs hs rfl rfl rfl (forgiving_answer_forgiven s).symm rfl
    obtain rfl : u = t := Host.Outcome.next.inj (hu.symm.trans ht)
    obtain ⟨ev, ev', htrace, htrace', hev, -⟩ := halike.events
    rw [forgiving_event] at hev
    refine ⟨t', ht', hsame, ?_⟩
    rw [htrace, htrace', List.map_append, List.map_append, hev]
    rfl

/-- Settles O39: the plan is answered throughout, by 32 payloads of the 4 bytes a READ expects. -/
theorem readConfigZoneCompletes : Obligations.ReadConfigZoneCompletes := by
  intro s words hidle hawake plan hanswers
  have hlengths : words.map List.length = (configPlan s.cfg).map Exchange.expect := answers_lengths hanswers
  refine ⟨?_, ?_, fun w j word hj hw => flatten_getElem?_of_length hj (fun v hv => ?_) hw⟩
  · have htaken : ∀ x ∈ configPlan s.cfg, PayloadTaken s.cfg x.pl := by
      intro x hx
      obtain ⟨w, -, rfl⟩ := List.mem_map.mp hx
      exact readExchange_taken s.cfg _ _
    have hgather : (gather (configPlan s.cfg) (accepted s)).finish = complete words.flatten (exchangedAll plan s) := by
      rw [gather_finish_complete (s := accepted s) htaken, rested_accepted, afterPlan_rested _ complete_rested]
      exact afterPlan_of_answers complete plan words [] s hanswers
    rw [← hgather]
    change Host.Outcome.next _ = _
    rw [operate_of_idle _ hidle, awakeGate_eq, if_pos (show (accepted s).session = .awake from hawake)]
    rfl
  · rw [List.length_flatten, hlengths, configPlan_expects]
  · have hmem : v.length ∈ (configPlan s.cfg).map Exchange.expect := hlengths ▸ List.mem_map_of_mem hv
    obtain ⟨x, hx, hexpect⟩ := List.mem_map.mp hmem
    obtain ⟨w, -, rfl⟩ := List.mem_map.mp hx
    exact hexpect.symm

/-- Settles O51: an idle block's run beside itself, all of whose events are the port's. -/
theorem eventsKeepToThePort : Obligations.EventsKeepToThePort := by
  intro i s t ht
  cases hs : s.busy with
  | true =>
    obtain rfl : s = t := Host.Outcome.next.inj ((exec_of_busy i hs).symm.trans ht)
    exact ⟨[], (List.append_nil _).symm, nofun⟩
  | false =>
    obtain ⟨u, _, hu, _, halike, _⟩ := exec_alike (.asWritten s.cfg) i hs hs rfl rfl rfl rfl rfl
    obtain rfl : u = t := Host.Outcome.next.inj (hu.symm.trans ht)
    obtain ⟨ev, -, htrace, -, -, hport⟩ := halike.events
    refine ⟨ev, htrace, fun e he => ?_⟩
    cases e with
    | send addr bytes o => exact hport _ he
    | wait ticks => trivial
    | recv addr len o bytes => exact hport _ he

end Sys2Proof.Proofs
end

section
/-! SUPPORT. The decoder and the encoder, one against the other: a descriptor decodes to an instruction exactly when it is
that instruction's encoding, and so does a wire unit where the OPEN opcodes and tokens tell the rows apart. -/

namespace Sys2Proof

open Machine

/-! ### Host descriptors (R98-R102) -/

/-- The assigned HOP values (R99). -/
theorem hopAssigned_iff (hop : Byte) :
    hopAssigned hop = true ↔ hop = 0x01 ∨ hop = 0x02 ∨ hop = 0x03 ∨ hop = 0x10 ∨ hop = 0x11 ∨ hop = 0x20 ∨ hop = 0x30 ∨
      hop = 0x31 ∨ hop = 0x32 ∨ hop = 0x33 ∨ hop = 0x40 ∨ hop = 0x41 ∨ hop = 0x50 ∨ hop = 0x60 ∨ hop = 0x61 := by
  simp [hopAssigned, hopTable, eq_comm (a := hop)]

/-- An unassigned HOP has no operand fields (R100). -/
theorem rdOperands_of_unassigned {hop : Byte} (h : ¬hopAssigned hop = true) (s : List Byte) :
    rdOperands hop s = none := by
  have hne := mt (hopAssigned_iff hop).mpr h
  simp only [not_or] at hne
  simp only [rdOperands, hne, if_false]

theorem hopAssigned_of_rdOperands {hop : Byte} {s : List Byte} {x : Instr × List Byte} (h : rdOperands hop s = some x) :
    hopAssigned hop = true := by
  by_contra hn
  exact nomatch (rdOperands_of_unassigned hn s).symm.trans h

/-- A record that is one DATA field (R98). -/
theorem dataOperand_iff {make : List Byte → Instr} {s : List Byte} {i : Instr} :
    ((rdData s).map fun d => (make d.1, d.2)) = some (i, []) ↔
      ∃ data, make data = i ∧ dataFits data = true ∧ s = encData data := by
  simp only [Option.map_eq_some_iff, Prod.exists, Prod.mk.injEq]
  constructor
  · rintro ⟨data, _, hread, hi, rfl⟩
    obtain ⟨rfl, hfits⟩ := rdData_some hread
    exact ⟨data, hi, hfits, List.append_nil _⟩
  · rintro ⟨data, hi, hfits, rfl⟩
    exact ⟨data, [], by simpa using rdData_encData hfits [], hi, rfl⟩

/-- A record that is SLOT and BLK (R98, R99). -/
theorem slotAndBlock_iff {make : U16 → List Byte → Instr} {s : List Byte} {i : Instr} :
    ((rd16 s).bind fun a => (rdBlock a.2).map fun b => (make a.1 b.1, b.2)) = some (i, []) ↔
      ∃ slot blk, make slot blk = i ∧ shortFits blk = true ∧ s = le16 slot ++ encBlock blk := by
  simp only [Option.bind_eq_some_iff, Option.map_eq_some_iff, Prod.exists, Prod.mk.injEq]
  constructor
  · rintro ⟨slot, _, hslot, blk, _, hblk, hi, rfl⟩
    obtain rfl := rd16_some hslot
    obtain ⟨rfl, hfits⟩ := rdBlock_some hblk
    exact ⟨slot, blk, hi, hfits, by rw [List.append_nil]⟩
  · rintro ⟨slot, blk, hi, hfits, rfl⟩
    exact ⟨slot, _, rd16_le16 slot _, blk, [], by simpa using rdBlock_encBlock hfits [], hi, rfl⟩

/-- What the operand fields of a descriptor are read as is a well-formed host operation, written as that descriptor. -/
theorem rdOperands_some (c : Cfg) {hop : Byte} {s : List Byte} {i : Instr} (h : rdOperands hop s = some (i, [])) :
    isHostOp i = true ∧ wellFormed i = true ∧ encode c i = .descriptor (hop :: s) := by
  rcases (hopAssigned_iff hop).mp (hopAssigned_of_rdOperands h) with
    rfl | rfl | rfl | rfl | rfl | rfl | rfl | rfl | rfl | rfl | rfl | rfl | rfl | rfl | rfl
  · -- CRC_COMPUTE
    obtain ⟨data, rfl, hfits, rfl⟩ := (dataOperand_iff (make := .crcCompute)).mp h
    exact ⟨rfl, hfits, rfl⟩
  · -- CRC_VALIDATE
    obtain ⟨data, rfl, hfits, rfl⟩ := (dataOperand_iff (make := .crcValidate)).mp h
    exact ⟨rfl, hfits, rfl⟩
  · -- FRAME_BUILD
    obtain ⟨⟨⟨opc, p1, p2, pl⟩, r⟩, hframe, hi⟩ := Option.map_eq_some_iff.mp h
    obtain ⟨rfl, rfl⟩ := Prod.mk.inj hi
    obtain ⟨rfl, hfits⟩ := rdFrame_some hframe
    exact ⟨rfl, hfits, by simp [encode]⟩
  · -- WAKE
    cases h
    exact ⟨rfl, rfl, rfl⟩
  · -- SLEEP
    cases h
    exact ⟨rfl, rfl, rfl⟩
  · -- TRANSACT
    obtain ⟨⟨⟨opc, p1, p2, pl⟩, t⟩, hframe, h⟩ := Option.bind_eq_some_iff.mp h
    obtain ⟨⟨⟨n, chk, ex, dly⟩, r⟩, hreceive, hi⟩ := Option.map_eq_some_iff.mp h
    obtain ⟨rfl, rfl⟩ := Prod.mk.inj hi
    obtain ⟨rfl, hfits⟩ := rdFrame_some hframe
    obtain rfl := rdReceive_some hreceive
    exact ⟨rfl, hfits, by simp [encode]⟩
  · -- READ_WORD
    obtain ⟨⟨zsel, t⟩, hzone, h⟩ := Option.bind_eq_some_iff.mp h
    obtain ⟨⟨addr, r⟩, haddr, hi⟩ := Option.map_eq_some_iff.mp h
    obtain ⟨rfl, rfl⟩ := Prod.mk.inj hi
    obtain rfl := rd2_some hzone
    obtain rfl := rd16_some haddr
    exact ⟨rfl, rfl, by simp [encode]⟩
  · -- READ_SERIAL
    cases h
    exact ⟨rfl, rfl, rfl⟩
  · -- READ_CONFIG_ZONE
    cases h
    exact ⟨rfl, rfl, rfl⟩
  · -- READ_LOCK_STATUS
    cases h
    exact ⟨rfl, rfl, rfl⟩
  · -- RANDOM
    obtain ⟨⟨k, r⟩, hcount, hi⟩ := Option.map_eq_some_iff.mp h
    obtain ⟨rfl, rfl⟩ := Prod.mk.inj hi
    obtain rfl := rd8_some hcount
    exact ⟨rfl, rfl, rfl⟩
  · -- RANDOM_RANGE
    obtain ⟨⟨low, t⟩, hlow, h⟩ := Option.bind_eq_some_iff.mp h
    obtain ⟨⟨high, r⟩, hhigh, hi⟩ := Option.map_eq_some_iff.mp h
    obtain ⟨rfl, rfl⟩ := Prod.mk.inj hi
    obtain rfl := rd64_some hlow
    obtain rfl := rd64_some hhigh
    exact ⟨rfl, rfl, by simp [encode]⟩
  · -- HASH
    obtain ⟨data, rfl, hfits, rfl⟩ := (dataOperand_iff (make := .hash)).mp h
    exact ⟨rfl, hfits, rfl⟩
  · -- AES_ENCRYPT
    obtain ⟨slot, blk, rfl, hfits, rfl⟩ := (slotAndBlock_iff (make := .aesEncrypt)).mp h
    exact ⟨rfl, hfits, rfl⟩
  · -- AES_DECRYPT
    obtain ⟨slot, blk, rfl, hfits, rfl⟩ := (slotAndBlock_iff (make := .aesDecrypt)).mp h
    exact ⟨rfl, hfits, rfl⟩

/-- The descriptor a well-formed host operation is written as is read as that operation. -/
theorem rdOperands_encode {c : Cfg} {i : Instr} (hi : isHostOp i = true) (hw : wellFormed i = true) :
    ∃ hop s, encode c i = .descriptor (hop :: s) ∧ rdOperands hop s = some (i, []) := by
  cases i with
  | crcCompute data => exact ⟨_, _, rfl, dataOperand_iff.mpr ⟨data, rfl, hw, rfl⟩⟩
  | crcValidate data => exact ⟨_, _, rfl, dataOperand_iff.mpr ⟨data, rfl, hw, rfl⟩⟩
  | frameBuild opc p1 p2 pl =>
    refine ⟨_, _, rfl, Option.map_eq_some_iff.mpr ⟨((opc, p1, p2, pl), []), ?_, rfl⟩⟩
    simpa using rdFrame_written hw opc p1 p2 []
  | wake => exact ⟨_, _, rfl, rfl⟩
  | sleep => exact ⟨_, _, rfl, rfl⟩
  | transact opc p1 p2 pl n chk ex dly =>
    refine ⟨_, _, rfl, Option.bind_eq_some_iff.mpr ⟨((opc, p1, p2, pl), encReceive n chk ex dly), ?_,
      Option.map_eq_some_iff.mpr ⟨((n, chk, ex, dly), []), ?_, rfl⟩⟩⟩
    · simpa using rdFrame_written hw opc p1 p2 (encReceive n chk ex dly)
    · simpa using rdReceive_encReceive n chk ex dly []
  | readWord zsel addr =>
    refine ⟨_, _, rfl, Option.bind_eq_some_iff.mpr ⟨_, rd2_setWidth zsel (le16 addr),
      Option.map_eq_some_iff.mpr ⟨(addr, []), ?_, rfl⟩⟩⟩
    simpa using rd16_le16 addr []
  | readSerial => exact ⟨_, _, rfl, rfl⟩
  | readConfigZone => exact ⟨_, _, rfl, rfl⟩
  | readLockStatus => exact ⟨_, _, rfl, rfl⟩
  | random k => exact ⟨_, _, rfl, rfl⟩
  | randomRange low high =>
    refine ⟨_, _, rfl, ?_⟩
    change ((rd64 (le64 low ++ le64 high)).bind fun a => (rd64 a.2).map fun b => (Instr.randomRange a.1 b.1, b.2)) = _
    have hhigh : rd64 (le64 high) = some (high, []) := by simpa using rd64_le64 high []
    rw [rd64_le64, Option.bind_some, hhigh, Option.map_some]
  | hash data => exact ⟨_, _, rfl, dataOperand_iff.mpr ⟨data, rfl, hw, rfl⟩⟩
  | aesEncrypt slot blk => exact ⟨_, _, rfl, slotAndBlock_iff.mpr ⟨slot, blk, rfl, hw, rfl⟩⟩
  | aesDecrypt slot blk => exact ⟨_, _, rfl, slotAndBlock_iff.mpr ⟨slot, blk, rfl, hw, rfl⟩⟩
  | _ => cases hi

theorem decodeDescriptor_cons_eq_instr {hop : Byte} {s : List Byte} {i : Instr} :
    decodeDescriptor (hop :: s) = .instr i ↔ rdOperands hop s = some (i, []) := by
  rw [decodeDescriptor]
  constructor
  · intro h
    repeat' split at h
    all_goals cases h
    assumption
  · intro h
    rw [if_pos (hopAssigned_of_rdOperands h), h]

/-- A descriptor decodes to the well-formed host operations it is the encoding of. -/
theorem decodeDescriptor_eq_instr_iff (c : Cfg) {bytes : List Byte} {i : Instr} :
    decodeDescriptor bytes = .instr i ↔ isHostOp i = true ∧ wellFormed i = true ∧ encode c i = .descriptor bytes := by
  constructor
  · intro h
    cases bytes with
    | nil => cases h
    | cons hop s => exact rdOperands_some c (decodeDescriptor_cons_eq_instr.mp h)
  · rintro ⟨hi, hw, henc⟩
    obtain ⟨hop, s, henc', hread⟩ := rdOperands_encode (c := c) hi hw
    obtain rfl := Request.descriptor.inj (henc.symm.trans henc')
    exact decodeDescriptor_cons_eq_instr.mpr hread

/-! ### Wire units (R80-R83, R89-R97) -/

/-- What the fields of a frame are read as is a well-formed wire command, written as that frame and what follows it. -/
theorem frameInstr_some {c : Cfg} {opc p1 : Byte} {p2 : U16} {data extra : List Byte} {i : Instr}
    (hlen : data.length ≤ 248) (h : frameInstr c opc p1 p2 data extra = some i) :
    isHostOp i = false ∧ wellFormed i = true ∧ encode c i = .wire (frameOf opc p1 p2 data ++ extra) := by
  rw [frameInstr] at h
  split at h
  · next hrow => -- READ
    obtain ⟨rfl, rfl, rfl⟩ := hrow
    cases h
    exact ⟨rfl, rfl, by rw [encode, List.append_nil]⟩
  split at h
  · next hrow => -- RANDOM
    obtain ⟨rfl, rfl, rfl, rfl, rfl⟩ := hrow
    cases h
    exact ⟨rfl, rfl, by rw [encode, List.append_nil]⟩
  split at h
  · next hrow => -- SHA_START
    obtain ⟨rfl, rfl, rfl, rfl, rfl⟩ := hrow
    cases h
    exact ⟨rfl, rfl, by rw [encode, List.append_nil]⟩
  split at h
  · next hrow => -- SHA_UPDATE
    obtain ⟨rfl, rfl, rfl, hchunk, rfl⟩ := hrow
    cases h
    exact ⟨rfl, beq_iff_eq.mpr hchunk, by rw [encode, List.append_nil]⟩
  split at h
  · next hrow => -- SHA_END
    obtain ⟨rfl, rfl, hcount, htail, rfl⟩ := hrow
    cases h
    have hp2 : BitVec.ofNat 16 data.length = p2 := by rw [← hcount, BitVec.ofNat_toNat, BitVec.setWidth_eq]
    exact ⟨rfl, decide_eq_true htail, by rw [encode, hp2, List.append_nil]⟩
  split at h
  · next hrow => -- AES_ENC
    obtain ⟨rfl, rfl, hblock, rfl⟩ := hrow
    cases h
    exact ⟨rfl, beq_iff_eq.mpr hblock, by rw [encode, List.append_nil]⟩
  split at h
  · next hrow => -- AES_DEC
    obtain ⟨rfl, rfl, hblock, rfl⟩ := hrow
    cases h
    exact ⟨rfl, beq_iff_eq.mpr hblock, by rw [encode, List.append_nil]⟩
  split at h
  · next hopc => -- CMD_WRITE
    subst hopc
    split at h
    · next n hreceive =>
      cases h
      obtain rfl := rdReceive_some hreceive
      by_cases hdata : data = []
      · subst hdata
        exact ⟨rfl, rfl, by simp [encode, payloadBytes]⟩
      · exact ⟨rfl, by simp [wellFormed, Payload.framable, hdata, hlen, List.length_pos_iff],
          by simp [encode, payloadBytes, hdata]⟩
    · cases h
  · cases h

/-- A frame decodes to the instructions its fields are read as. -/
theorem decodeFrame_eq_instr_iff {c : Cfg} {bytes : List Byte} {i : Instr} :
    decodeFrame c bytes = .instr i ↔ ∃ opc p1 p2 data extra, data.length ≤ 248 ∧
      bytes = frameOf opc p1 p2 data ++ extra ∧ frameInstr c opc p1 p2 data extra = some i := by
  constructor
  · intro h
    obtain ⟨n, hn⟩ : ∃ n, (bytes.getD 0 0).toNat = n := ⟨_, rfl⟩
    simp only [decodeFrame, hn] at h
    split at h
    · cases h
    next hcount =>
    obtain ⟨hseven, hlen⟩ : 7 ≤ n ∧ (bytes.take n).length = n := by omega
    split at h
    · next hvalid =>
      split at h
      · next j hrow =>
        cases h
        have hbyte : n < 256 := hn ▸ (bytes.getD 0 0).isLt
        have hhead : (bytes.take n).getD 0 0 = bytes.getD 0 0 := by
          rw [List.getD_eq_getElem?_getD, List.getElem?_take_of_lt (by omega), ← List.getD_eq_getElem?_getD]
        refine ⟨_, _, _, _, _, ?_, ?_, hrow⟩
        · exact (List.length_take_le _ _).trans (by omega)
        · rw [← frame_eq_frameOf hseven hlen ((congrArg BitVec.toNat hhead).trans hn) hvalid, List.take_append_drop]
      · cases h
    · cases h
  · rintro ⟨opc, p1, p2, data, extra, hlen, rfl, hrow⟩
    obtain ⟨hcount, htake, hdrop, hvalid, hopc, hp1, hp2, hdata⟩ := frameOf_fields opc p1 p2 data extra hlen
    have hseven : 7 + data.length - 7 = data.length := Nat.add_sub_cancel_left 7 _
    simp only [decodeFrame, hcount, htake, hdrop, hvalid, hopc, hp1, hp2, hseven, hdata, hrow, frameOf_length]
    simp

/-- What a wire unit decodes to is well-formed, no host operation, and written as that unit. -/
theorem decodeWire_some {c : Cfg} {bytes : List Byte} {i : Instr} (h : decodeWire c bytes = .instr i) :
    isHostOp i = false ∧ wellFormed i = true ∧ encode c i = .wire bytes := by
  match bytes, h with
  | [b], h =>
    rw [decodeWire] at h
    split at h
    · next hb =>
      cases h
      exact ⟨rfl, rfl, by rw [encode, hb]⟩
    split at h
    · next hb =>
      cases h
      exact ⟨rfl, rfl, by rw [encode, hb]⟩
    · cases h
  | b :: b' :: s, h =>
    obtain ⟨opc, p1, p2, data, extra, hlen, hbytes, hrow⟩ := decodeFrame_eq_instr_iff.mp h
    exact hbytes ▸ frameInstr_some hlen hrow

/-- A frame is read as its row of R92, whatever the tokens are: it has more than one byte. -/
theorem decodeWire_frameOf {c : Cfg} {opc p1 : Byte} {p2 : U16} {data extra : List Byte} {i : Instr}
    (hlen : data.length ≤ 248) (h : frameInstr c opc p1 p2 data extra = some i) :
    decodeWire c (frameOf opc p1 p2 data ++ extra) = .instr i :=
  decodeFrame_eq_instr_iff.mpr ⟨opc, p1, p2, data, extra, hlen, rfl, h⟩

theorem decodeWire_frameOf_alone {c : Cfg} {opc p1 : Byte} {p2 : U16} {data : List Byte} {i : Instr}
    (hlen : data.length ≤ 248) (h : frameInstr c opc p1 p2 data [] = some i) :
    decodeWire c (frameOf opc p1 p2 data) = .instr i := by
  simpa using decodeWire_frameOf hlen h

/-- A framable payload is the one its bytes are read as (R81, R98). -/
theorem payload_of_framable {pl : Payload} (h : pl.framable = true) :
    (if payloadBytes pl = [] then .absent 0 else .present (payloadBytes pl)) = pl ∧ (payloadBytes pl).length ≤ 248 := by
  cases pl with
  | absent plen =>
    obtain rfl : plen = 0 := beq_iff_eq.mp h
    exact ⟨rfl, Nat.zero_le 248⟩
  | present data =>
    obtain ⟨hpos, hlen⟩ : 0 < data.length ∧ data.length ≤ 248 := by simpa [Payload.framable] using h
    exact ⟨if_neg (List.length_pos_iff.mp hpos), hlen⟩

/-- Where the OPEN opcodes and tokens tell the rows apart, a wire unit is read as what it was written for. -/
theorem decode_encode_wire {c : Cfg} {i : Instr} (hc : c.WireDistinct) (hi : isHostOp i = false)
    (hw : wellFormed i = true) :
    decode c (encode c i) = .instr i := by
  obtain ⟨hopcodes, htokens⟩ := hc
  simp only [List.nodup_cons, List.mem_cons, List.not_mem_nil, not_or, or_false] at hopcodes
  obtain ⟨⟨hreadWrite, hreadRandom, hreadSha, hreadAes⟩, ⟨hwriteRandom, hwriteSha, hwriteAes⟩, ⟨hrandomSha, hrandomAes⟩,
    hshaAes, -⟩ := hopcodes
  cases i with
  | cmdRead zone addr => exact decodeWire_frameOf_alone (data := []) (Nat.zero_le 248) (by simp [frameInstr])
  | cmdWrite p1 p2 pl n chk ex dly =>
    obtain ⟨hpl, hlen⟩ := payload_of_framable hw
    have hreceive : rdReceive (encReceive n chk ex dly) = some ((n, chk, ex, dly), []) := by
      simpa using rdReceive_encReceive n chk ex dly []
    refine decodeWire_frameOf hlen ?_
    simpa [frameInstr, Ne.symm hreadWrite, hwriteRandom, hwriteSha, hwriteAes, hreceive] using hpl
  | cmdRandom =>
    exact decodeWire_frameOf_alone (data := []) (Nat.zero_le 248) (by simp [frameInstr, Ne.symm hreadRandom])
  | cmdShaStart =>
    exact decodeWire_frameOf_alone (data := []) (Nat.zero_le 248)
      (by simp [frameInstr, Ne.symm hreadSha, Ne.symm hrandomSha])
  | cmdShaUpdate chunk =>
    have hlen : chunk.length = 64 := beq_iff_eq.mp hw
    exact decodeWire_frameOf_alone (by omega)
      (by simp [frameInstr, Ne.symm hreadSha, Ne.symm hrandomSha, hlen, Config.shaChunk])
  | cmdShaEnd tail =>
    have hlen : tail.length < 64 := of_decide_eq_true hw
    have hcount : tail.length % 65536 = tail.length := Nat.mod_eq_of_lt (by omega)
    exact decodeWire_frameOf_alone (by omega)
      (by simp [frameInstr, Ne.symm hreadSha, Ne.symm hrandomSha, hlen, hcount, Config.shaChunk])
  | cmdAesEnc slot blk =>
    have hlen : blk.length = 16 := beq_iff_eq.mp hw
    exact decodeWire_frameOf_alone (by omega)
      (by simp [frameInstr, Ne.symm hreadAes, Ne.symm hrandomAes, Ne.symm hshaAes, hlen, Config.aesBlock])
  | cmdAesDec slot blk =>
    have hlen : blk.length = 16 := beq_iff_eq.mp hw
    exact decodeWire_frameOf_alone (by omega)
      (by simp [frameInstr, Ne.symm hreadAes, Ne.symm hrandomAes, Ne.symm hshaAes, hlen, Config.aesBlock])
  | tokenWake => rfl
  | tokenSleep => simp [decode, encode, decodeWire, htokens]
  | _ => cases hi

/-! ### Any request -/

theorem decode_encode_hostOp (c : Cfg) {i : Instr} (hi : isHostOp i = true) (hw : wellFormed i = true) :
    ∃ bytes, encode c i = .descriptor bytes ∧ decode c (.descriptor bytes) = .instr i := by
  obtain ⟨hop, s, henc, -⟩ := rdOperands_encode (c := c) hi hw
  exact ⟨hop :: s, henc, (decodeDescriptor_eq_instr_iff c).mpr ⟨hi, hw, henc⟩⟩

/-- A request that decodes to an instruction is the one encoding of it, which is well-formed. -/
theorem encode_of_decode {c : Cfg} {r : Request} {i : Instr} (h : decode c r = .instr i) :
    encode c i = r ∧ wellFormed i = true := by
  cases r with
  | descriptor bytes =>
    obtain ⟨-, hw, henc⟩ := (decodeDescriptor_eq_instr_iff c).mp h
    exact ⟨henc, hw⟩
  | wire bytes =>
    obtain ⟨-, hw, henc⟩ := decodeWire_some h
    exact ⟨henc, hw⟩

/-- The descriptor of a host operation is the same in every block: no OPEN field stands in it (R99). -/
theorem encode_hostOp_eq {i : Instr} (hi : isHostOp i = true) (c c' : Cfg) : encode c i = encode c' i := by
  cases i with
  | cmdRead | cmdWrite | cmdRandom | cmdShaStart | cmdShaUpdate | cmdShaEnd | cmdAesEnc | cmdAesDec => cases hi
  | tokenWake | tokenSleep => cases hi
  | _ => rfl

/-! ### The assembly text (R104) -/

theorem isHostOp_of_map {α : Type} {read : Option α} {make : α → Instr × List Token} {i : Instr} {r : List Token}
    (hmake : ∀ a, isHostOp (make a).1 = true) (h : read.map make = some (i, r)) : isHostOp i = true := by
  obtain ⟨a, -, ha⟩ := Option.map_eq_some_iff.mp h
  simpa [ha] using hmake a

/-- Every mnemonic is that of a host operation. -/
theorem operandReader_isHostOp {row : OperandReader} (hrow : row ∈ operandReaders) {s r : List Token} {i : Instr}
    (h : row.operands s = some (i, r)) : isHostOp i = true := by
  simp only [operandReaders, List.mem_cons, List.not_mem_nil, or_false] at hrow
  rcases hrow with rfl | rfl | rfl | rfl | rfl | rfl | rfl | rfl | rfl | rfl | rfl | rfl | rfl | rfl | rfl
  · -- CRC_COMPUTE
    exact isHostOp_of_map (fun _ => rfl) h
  · -- CRC_VALIDATE
    exact isHostOp_of_map (fun _ => rfl) h
  · -- FRAME_BUILD
    exact isHostOp_of_map (fun _ => rfl) h
  · -- WAKE
    cases h; rfl
  · -- SLEEP
    cases h; rfl
  · -- TRANSACT
    obtain ⟨f, -, h⟩ := Option.bind_eq_some_iff.mp h
    obtain ⟨t, -, h⟩ := Option.bind_eq_some_iff.mp h
    exact isHostOp_of_map (fun _ => rfl) h
  · -- READ_WORD
    obtain ⟨zone, -, h⟩ := Option.bind_eq_some_iff.mp h
    obtain ⟨t, -, h⟩ := Option.bind_eq_some_iff.mp h
    exact isHostOp_of_map (fun _ => rfl) h
  · -- READ_SERIAL
    cases h; rfl
  · -- READ_CONFIG_ZONE
    cases h; rfl
  · -- READ_LOCK_STATUS
    cases h; rfl
  · -- RANDOM
    exact isHostOp_of_map (fun _ => rfl) h
  · -- RANDOM_RANGE
    obtain ⟨low, -, h⟩ := Option.bind_eq_some_iff.mp h
    obtain ⟨t, -, h⟩ := Option.bind_eq_some_iff.mp h
    exact isHostOp_of_map (fun _ => rfl) h
  · -- HASH
    exact isHostOp_of_map (fun _ => rfl) h
  · -- AES_ENCRYPT
    exact isHostOp_of_map (fun _ => rfl) h
  · -- AES_DECRYPT
    exact isHostOp_of_map (fun _ => rfl) h

theorem assembleLine_some {line : List Char} {i : Instr} (h : assembleLine line = some i) :
    isHostOp i = true ∧ wellFormed i = true := by
  rw [assembleLine] at h
  split at h
  · next mnemonic s _ =>
    split at h
    · next j hread =>
      obtain ⟨row, hfind, hrow⟩ := Option.bind_eq_some_iff.mp hread
      split at h
      · next hw =>
        cases h
        exact ⟨operandReader_isHostOp (List.mem_of_find?_eq_some hfind) hrow, hw⟩
      · cases h
    · cases h
  · cases h

end Sys2Proof
end

section
/-! SUPPORT. How an operation begun at the host port ends: in an argument refused, in a token sent, in one exchange; the
layout of a frame; what the reader accepts as intact. -/

namespace Sys2Proof.Machine

/-! ### The layout of a frame (R80-R83) -/

/-- A frame byte by byte: count, opcode, param1, param2 low byte first, payload, trailer. -/
theorem frameOf_eq (opc p1 : Byte) (p2 : U16) (data : List Byte) :
    frameOf opc p1 p2 data =
      BitVec.ofNat 8 (7 + data.length) :: opc :: p1 :: p2.extractLsb' 0 8 :: p2.extractLsb' 8 8 ::
        (data ++ le16 (crc16 (frameBody opc p1 p2 data))) := rfl

/-- What a frame's trailer covers (R83). -/
theorem frameOf_take (opc p1 : Byte) (p2 : U16) (data : List Byte) :
    (frameOf opc p1 p2 data).take (5 + data.length) = frameBody opc p1 p2 data := by
  rw [frameOf, withTrailer, ← frameBody_length opc p1 p2 data, List.take_left]

theorem frameOf_trailer (opc p1 : Byte) (p2 : U16) (data : List Byte) (k : Nat) :
    (frameOf opc p1 p2 data)[5 + data.length + k]? = (le16 (crc16 (frameBody opc p1 p2 data)))[k]? := by
  rw [frameOf, withTrailer, ← frameBody_length opc p1 p2 data, List.getElem?_append_right (Nat.le_add_right _ _),
    Nat.add_sub_cancel_left]

theorem count_toNat {n : Nat} (h : n < 256) : (BitVec.ofNat 8 n).toNat = n := Nat.mod_eq_of_lt h

/-! ### Arguments refused (R101, R301) -/

theorem operate_of_refused {body : State → Reply (List Byte)} {s : State} (hidle : s.busy = false) {e : Err}
    (h : body (accepted s) = .raised e (accepted s)) : operate body s = errorEntry e s := by
  rw [operate_of_idle body hidle, h]
  rfl

theorem require_refused {p : Bool} {body : State → Reply (List Byte)} {s : State}
    (h : p = true → body s = .raised .invalidArgument s) : require p body s = .raised .invalidArgument s := by
  rw [require_eq]
  split
  · next hp => exact h hp
  · rfl

theorem dispatch_of_not_taken {x : Exchange} {s : State} (h : ¬PayloadTaken s.cfg x.pl) :
    dispatch x s = .raised .invalidArgument s := by
  rw [dispatch, build_of_not_taken h]
  rfl

/-- ZSEL = 3 names no zone (R95, R100). -/
theorem zoneCode_eq_none {zsel : BitVec 2} (c : Cfg) (h : ¬zsel.toNat ≤ 2) : zoneCode c zsel = none := by
  obtain rfl : zsel = 3 := by bv_omega
  rfl

/-- RANDOM's range (R246). -/
theorem countInRange_iff (k : Byte) : countInRange k = true ↔ 1 ≤ k.toNat ∧ k.toNat ≤ 32 := by
  rw [countInRange, Bool.and_eq_true, decide_eq_true_iff, decide_eq_true_iff, Config.randomBytes]

/-- INVALID_ARGUMENT in an idle block, written out (R301, R312). -/
theorem errorEntry_invalidArgument {s : State} (hidle : s.busy = false) :
    errorEntry .invalidArgument s = { s with
      err0 := 1, err1 := 0, err2 := 0, result := []
      phase := .idle, timer := 0, ctxStep := 0, acc := [] } := by
  rw [errorEntry_eq .invalidArgument (code := 1) rfl, hidle]
  rfl

/-! ### A token sent (R89, R90) -/

/-- s after a send that ends no operation: one transaction and one event. -/
def sentTo (addr : BusAddr) (bytes : List Byte) (s : State) : State :=
  { later 1 s with trace := s.trace ++ [.send addr bytes (outcomeAt s 0)] }

/-- A FATAL outcome of the send an operation begins with ends it (R303). -/
theorem operate_send_of_fatal {body : State → Reply (List Byte)} {s : State} {addr : BusAddr} {bytes : List Byte}
    {next : Unit → State → Reply (List Byte)} {code : U32}
    (hbody : body (accepted s) = (send addr bytes (accepted s)).andThen next) (hidle : s.busy = false)
    (h : FatalWith s.cfg (outcomeAt s 0) code) :
    operate body s = errorEntry (.transport code) (sentTo addr bytes s) := by
  rw [operate_of_idle body hidle, hbody,
    send_of_fatal (s := accepted s) ((classify_eq_fatal_iff s.cfg (outcomeAt s 0) code).mpr h)]
  rfl

/-- Any other outcome lets the operation go on (R63). -/
theorem operate_send_of_goesOn {body : State → Reply (List Byte)} {s : State} {addr : BusAddr} {bytes : List Byte}
    {next : Unit → State → Reply (List Byte)}
    (hbody : body (accepted s) = (send addr bytes (accepted s)).andThen next) (hidle : s.busy = false)
    (h : GoesOn s.cfg (outcomeAt s 0)) :
    operate body s = (next () (accepted (sentTo addr bytes s))).finish := by
  rw [operate_of_idle body hidle, hbody,
    send_of_goesOn (s := accepted s) ((goesOn_iff s.cfg (outcomeAt s 0)).mp h)]
  rfl

/-! ### The answer of WAKE (R192, R193) -/

/-- The state in which WAKE receives: the token sent, the settle delay over. -/
def wakeSettled (s : State) : State := wait s.cfg.tWake (accepted (sentTo s.cfg.wakeAddr [Config.wakeToken] s))

/-- WAKE's receive recorded: two transactions and three events since s. -/
theorem record_wakeSettled (e : Event) (s : State) :
    record e { later 1 (wakeSettled s) with phase := .recv } =
      { accepted { later 2 s with
          trace := s.trace ++ [.send s.cfg.wakeAddr [Config.wakeToken] (outcomeAt s 0), .wait s.cfg.tWake, e] } with
        phase := .recv, timer := 0 } := by
  simp [wakeSettled, sentTo, later, wait, record, loadTimer, accepted]

theorem acceptWake_finish (buf : List Byte) (s : State) :
    (acceptWake buf s).finish =
      if wakeAccepted s.cfg buf then complete [] { s with session := .awake }
      else errorEntry (.wakeFailure (buf.getD 0 0) (buf.getD 1 0)) s := by
  rw [acceptWake]
  split <;> rfl

/-- The wake response is accepted on its first two bytes alone (R91). -/
theorem wakeAccepted_iff (c : Cfg) (buf : List Byte) :
    wakeAccepted c buf = true ↔ buf.getD 0 0 = 4 ∧ buf.getD 1 0 = c.stWake := by
  rw [wakeAccepted, Bool.and_eq_true, beq_iff_eq, beq_iff_eq]

/-! ### One exchange (R221, R222) -/

/-- An operation that is one exchange run by the raw dispatcher (R222). -/
theorem operate_dispatch {body : State → Reply (List Byte)} {s : State} {x : Exchange}
    (hbody : body (accepted s) = dispatch x (accepted s)) (hidle : s.busy = false) (hawake : s.session = .awake)
    (hpl : PayloadTaken s.cfg x.pl) : operate body s = afterPlan complete [x] [] s := by
  rw [operate_of_idle body hidle, hbody, dispatch_finish,
    if_pos (show payloadAccepted (accepted s).cfg.maxCmdSize x.pl = true from (payloadAccepted_iff _ _).mpr hpl),
    if_pos (show (accepted s).session = .awake from hawake), rested_accepted, afterPlan_rested _ complete_rested]

/-- A library operation that is one exchange (R241). -/
theorem operate_exchange {body : State → Reply (List Byte)} {s : State} {x : Exchange}
    (hbody : body (accepted s) = awakeGate (exchange x) (accepted s)) (hidle : s.busy = false)
    (hawake : s.session = .awake) (hpl : PayloadTaken s.cfg x.pl) : operate body s = afterPlan complete [x] [] s := by
  have hval : (exchange x (accepted s)).andThen .val = exchange x (accepted s) := by
    cases exchange x (accepted s) <;> rfl
  rw [operate_of_idle body hidle, hbody, awakeGate_eq, if_pos (show (accepted s).session = .awake from hawake), ← hval,
    exchange_finish .val (fun _ _ => rfl) x (accepted s) hpl, rested_accepted]
  exact afterPlan_rested _ complete_rested [x] [] s

/-- One exchange whose response the reader accepts (R169). -/
theorem afterPlan_answered {x : Exchange} {s : State} {p : List Byte} (h : Answers s [x] [p]) :
    afterPlan complete [x] [] s = complete p (exchanged x s) ∧ p.length = x.expect := by
  refine ⟨?_, ?_⟩
  · simpa [exchangedAll] using afterPlan_of_answers complete [x] [p] [] s h
  · simpa using answers_lengths h

/-- One exchange whose response the reader refuses (R163-R168). -/
theorem afterPlan_refused {x : Exchange} {s : State} {e : Err} (hsend : GoesOn s.cfg (outcomeAt s 0))
    (hrecv : GoesOn s.cfg (outcomeAt s 1)) (h : verdict x.expect x.check x.exact (exchangeBytes x s) = .error e) :
    afterPlan complete [x] [] s = errorEntry e (exchanged x s) := by
  rw [goesOn_iff] at hsend hrecv
  simp only [afterPlan, h]

/-- TRANSACT with valid arguments while Awake is its one exchange (R222). -/
theorem exec_transact {opc p1 : Byte} {p2 : U16} {pl : Payload} {n : Byte} {chk ex : Bool} {dly : U32} {s : State}
    (hidle : s.busy = false) (hawake : s.session = .awake) (hn : n.toNat ≤ 252) (hpl : PayloadTaken s.cfg pl) :
    exec (.transact opc p1 p2 pl n chk ex dly) s =
      .next (afterPlan complete [⟨opc, p1, p2, pl, n.toNat, chk, ex, dly⟩] [] s) := by
  refine congrArg Host.Outcome.next
    (operate_dispatch (x := ⟨opc, p1, p2, pl, n.toNat, chk, ex, dly⟩) ?_ hidle hawake hpl)
  rw [require_eq, if_pos (show expectInRange n = true from decide_eq_true hn)]
  rfl

/-- A payload of at most 64 bytes fits every block's MAX_CMD_SIZE (R343). -/
theorem payloadTaken_present (c : Cfg) {data : List Byte} (hpos : 1 ≤ data.length) (hle : data.length ≤ 64) :
    PayloadTaken c (.present data) := by
  have hmax : 71 ≤ c.maxCmdSize.toNat := c.valid.1
  exact .inr ⟨data, rfl, hpos, by omega⟩

/-- The exchange of a wire command carries a payload the framer takes (R92, R93). -/
theorem wireExchange_taken {c : Cfg} {i : Instr} {x : Exchange} (hx : wireExchange c i = some x)
    (hvalid : ArgumentsValid c i) : PayloadTaken c x.pl := by
  cases i with
  | cmdRead | cmdRandom | cmdShaStart => cases hx; exact .inl rfl
  | cmdWrite => cases hx; exact hvalid.2
  | cmdShaUpdate chunk =>
    cases hx
    have hlen : chunk.length = 64 := hvalid
    exact payloadTaken_present c (by omega) (by omega)
  | cmdShaEnd tail =>
    cases hx
    have hlen : tail.length < 64 := hvalid
    by_cases htail : tail = []
    · exact .inl (if_pos htail)
    · rw [shaEndExchange, if_neg htail]
      exact payloadTaken_present c (List.length_pos_iff.mpr htail) (by omega)
  | cmdAesEnc slot blk | cmdAesDec slot blk =>
    cases hx
    have hlen : blk.length = 16 := hvalid
    exact payloadTaken_present c (by omega) (by omega)
  | _ => cases hx

/-- A wire command with valid arguments while Awake is its one exchange (R97, R222). -/
theorem exec_wire {i : Instr} {x : Exchange} {s : State} (hx : wireExchange s.cfg i = some x)
    (hvalid : ArgumentsValid s.cfg i) (hidle : s.busy = false) (hawake : s.session = .awake) :
    exec i s = .next (afterPlan complete [x] [] s) := by
  have hpl : PayloadTaken s.cfg x.pl := wireExchange_taken hx hvalid
  cases i with
  | cmdWrite p1 p2 pl n chk ex dly =>
    cases hx
    refine congrArg Host.Outcome.next (operate_dispatch ?_ hidle hawake hpl)
    rw [require_eq, if_pos (show expectInRange n = true from decide_eq_true hvalid.1)]
    rfl
  | cmdRead | cmdRandom | cmdShaStart | cmdShaUpdate | cmdShaEnd | cmdAesEnc | cmdAesDec =>
    cases hx
    exact congrArg Host.Outcome.next (operate_dispatch rfl hidle hawake hpl)
  | _ => cases hx

/-! ### What the reader accepts (R87, R169) -/

theorem err0_ne_zero (e : Err) : e.err0 ≠ 0 := by
  intro h
  have hcode : e.code = 0 := (errCode_err0 e).symm.trans (congrArg errCode h)
  cases e <;> exact absurd hcode (by simp [Err.code])

/-- With the checksum asked for and a payload expected, the reader accepts exactly the data responses of the length asked
for whose trailer is right. -/
theorem verdict_eq_ok_iff {n : Nat} {exact : Bool} {buf p : List Byte} (hn : 1 ≤ n) (hl : buf.length = n + 3) :
    verdict n true exact buf = .ok p ↔
      2 ≤ n ∧ (buf.getD 0 0).toNat = n + 3 ∧ trailer buf = crc16 (covered buf) ∧ p = (buf.drop 1).take n := by
  have hmax : max 4 (n + 3) = n + 3 := by omega
  have htrailer : trailer buf = unle16 ((buf.take (n + 3)).drop (n + 3 - 2)) := by rw [trailer, ← hl, List.take_length]
  have hcovered : covered buf = buf.take (n + 3 - 2) := by rw [covered, hl]
  obtain ⟨c, hc⟩ : ∃ c, (buf.getD 0 0).toNat = c := ⟨_, rfl⟩
  simp only [verdict, hc, hmax]
  constructor
  · intro h
    split at h; · cases h
    split at h; · cases h
    split at h; · cases h
    split at h; · cases h
    split at h; · omega
    split at h; · cases h
    split at h; · cases h
    split at h; · cases h
    next hlow hhigh hstatus hempty _ _ hshort hsum =>
    have hne : c ≠ 4 := fun hc4 => hempty ⟨hc4, not_not.mp fun hst => hstatus ⟨hc4, hst⟩, hn⟩
    obtain rfl : c = n + 3 := by omega
    refine ⟨by omega, rfl, ?_, (Except.ok.inj h).symm⟩
    rw [htrailer, hcovered]
    exact not_not.mp fun hne => hsum ⟨by omega, trivial, hne⟩
  · rintro ⟨htwo, rfl, hsum, rfl⟩
    rw [htrailer, hcovered] at hsum
    rw [if_neg (by omega), if_neg (by omega), if_neg (by omega), if_neg (by omega), if_neg (by omega),
      if_neg (by simp), if_neg (by omega), if_neg fun h => h.2.2 hsum]

/-- Such a response is the intact one that carries its payload. -/
theorem intact_iff {n : Nat} {buf p : List Byte} (hn : n ≤ 252) (hl : buf.length = n + 3) :
    (buf.getD 0 0).toNat = n + 3 ∧ trailer buf = crc16 (covered buf) ∧ p = (buf.drop 1).take n ↔
      p.length = n ∧ buf = intact p := by
  constructor
  · rintro ⟨hcount, hsum, rfl⟩
    have hp : ((buf.drop 1).take n).length = n := by rw [List.length_take, List.length_drop]; omega
    refine ⟨hp, ?_⟩
    have hcovered : covered buf = BitVec.ofNat 8 (n + 3) :: (buf.drop 1).take n := by
      cases buf with
      | nil => simp at hl
      | cons b r =>
        obtain rfl : BitVec.ofNat 8 (n + 3) = b := by
          rw [← hcount, BitVec.ofNat_toNat, BitVec.setWidth_eq, List.getD_cons_zero]
        rw [covered, hl]
        rfl
    rw [intact, hp, ← hcovered, withTrailer, ← hsum, covered_append_trailer (by omega)]
  · rintro ⟨rfl, rfl⟩
    exact ⟨count_toNat (by omega), by rw [intact, trailer_withTrailer, covered_withTrailer],
      (List.take_left (l₁ := p)).symm⟩

/-- An exchange whose transactions both go on succeeds exactly where the reader accepts (R171, R311). -/
theorem afterPlan_err0_eq_zero_iff {x : Exchange} {s : State} (hsend : GoesOn s.cfg (outcomeAt s 0))
    (hrecv : GoesOn s.cfg (outcomeAt s 1)) :
    (afterPlan complete [x] [] s).err0 = 0 ↔
      ∃ p, verdict x.expect x.check x.exact (exchangeBytes x s) = .ok p := by
  cases hv : verdict x.expect x.check x.exact (exchangeBytes x s) with
  | error e => simpa [afterPlan_refused hsend hrecv hv] using err0_ne_zero e
  | ok p =>
    have hanswered : Answers s [x] [p] := ⟨hsend, hrecv, hv, trivial⟩
    rw [(afterPlan_answered hanswered).1]
    exact ⟨fun _ => ⟨p, rfl⟩, fun _ => rfl⟩

end Sys2Proof.Machine
end

section
/-! PROOF. The statements about the encodings (30_encoding.md): what the words of an instruction stand for, the layout of a
frame, the operands that are refused, and the operations that are one send or one exchange. -/

namespace Sys2Proof.Proofs

open Machine

/-- Settles O3: descriptors and wire units apart. -/
theorem decodeOfEncodeIsTheInstruction : Obligations.DecodeOfEncodeIsTheInstruction := by
  intro c i hw hside
  by_cases hi : isHostOp i = true
  · obtain ⟨bytes, henc, hdec⟩ := decode_encode_hostOp c hi hw
    rw [henc, hdec]
  · exact decode_encode_wire (hside.resolve_left hi) (by simpa using hi) hw

/-- Settles O4: what is read of a request is what the encoder writes. -/
theorem encodeOfDecodeIsTheRequest : Obligations.EncodeOfDecodeIsTheRequest :=
  fun _ _ _ h => (encode_of_decode h).1

/-- Settles O5: the reader of each field takes no more than the field holds. -/
theorem decodedInstructionsAreWellFormed : Obligations.DecodedInstructionsAreWellFormed :=
  fun _ _ _ h => (encode_of_decode h).2

/-- Settles O6: each mnemonic makes a host operation, whose descriptor depends on no CFG. -/
theorem linesAreHostOperations : Obligations.LinesAreHostOperations := by
  intro line i h
  obtain ⟨hi, hw⟩ := assembleLine_some h
  obtain ⟨bytes, henc, -⟩ := decode_encode_hostOp Config.cfgRef hi hw
  refine ⟨hi, hw, bytes, fun c => ?_⟩
  have hencode : encode c i = .descriptor bytes := (encode_hostOp_eq hi c Config.cfgRef).trans henc
  exact ⟨hencode, (decodeDescriptor_eq_instr_iff c).mpr ⟨hi, hw, hencode⟩⟩

/-- Settles O2, by evaluation of each word. -/
theorem wordsFromTheSpecDecode : Obligations.WordsFromTheSpecDecode := by
  unfold Obligations.WordsFromTheSpecDecode
  decide +kernel

/-- Settles O12, row by row. -/
theorem libraryCommandsAreTheTableRows : Obligations.LibraryCommandsAreTheTableRows :=
  fun _ => ⟨fun _ _ => rfl, rfl, rfl, fun _ => rfl, rfl, fun _ _ => rfl, fun _ _ => rfl, fun _ _ => rfl⟩

/-- Settles O13, by the frame written out and its trailer. -/
theorem framesAreLaidOut : Obligations.FramesAreLaidOut := by
  intro opc p1 p2 data hlen f n
  have htrailer := frameOf_trailer opc p1 p2 data
  rw [← frameOf_take] at htrailer
  refine ⟨frameOf_length .., ⟨_, rfl, count_toNat (by omega)⟩, rfl, rfl, rfl, rfl, fun j hj => ?_, ?_, ?_⟩
  · change (frameOf opc p1 p2 data)[5 + j]? = data[j]?
    rw [frameOf_eq, Nat.add_comm 5 j]
    exact List.getElem?_append_left hj
  · exact htrailer 0
  · have hplace : 6 + n = 5 + n + 1 := by omega
    rw [hplace]
    exact htrailer 1

/-- Settles O20: each check stands before anything the operation does. -/
theorem badArgumentsAreRefused : Obligations.BadArgumentsAreRefused := by
  intro i s hidle hbad hop
  cases i with
  | frameBuild opc p1 p2 pl =>
    exact congrArg Host.Outcome.next (operate_of_refused hidle (build_of_not_taken hbad))
  | transact opc p1 p2 pl n chk ex dly =>
    refine congrArg Host.Outcome.next (operate_of_refused hidle (require_refused fun hn => ?_))
    exact dispatch_of_not_taken fun hpl => hbad ⟨of_decide_eq_true hn, hpl⟩
  | cmdWrite p1 p2 pl n chk ex dly =>
    refine congrArg Host.Outcome.next (operate_of_refused hidle (require_refused fun hn => ?_))
    exact dispatch_of_not_taken fun hpl => hbad ⟨of_decide_eq_true hn, hpl⟩
  | readWord zsel addr =>
    refine congrArg Host.Outcome.next (operate_of_refused hidle ?_)
    rw [accepted_cfg, zoneCode_eq_none s.cfg hbad]
  | random k =>
    refine congrArg Host.Outcome.next (operate_of_refused hidle (require_refused fun hk => ?_))
    exact absurd ((countInRange_iff k).mp hk) hbad
  | randomRange lo hi =>
    refine congrArg Host.Outcome.next (operate_of_refused hidle (require_refused fun hle => ?_))
    exact absurd (of_decide_eq_true hle) hbad
  | aesEncrypt slot blk =>
    refine congrArg Host.Outcome.next (operate_of_refused hidle (require_refused fun hblk => ?_))
    exact absurd (beq_iff_eq.mp hblk) hbad
  | aesDecrypt slot blk =>
    refine congrArg Host.Outcome.next (operate_of_refused hidle (require_refused fun hblk => ?_))
    exact absurd (beq_iff_eq.mp hblk) hbad
  | crcCompute | crcValidate | wake | sleep | readSerial | readConfigZone | readLockStatus | hash =>
    exact absurd trivial hbad
  | cmdRead | cmdRandom | cmdShaStart | cmdShaUpdate | cmdShaEnd | cmdAesEnc | cmdAesDec | tokenWake | tokenSleep =>
    rcases hop with hhost | ⟨_, _, _, _, _, _, _, hwrite⟩
    · cases hhost
    · cases hwrite

/-- Settles O7: a record with an unassigned HOP is taken off the queue and refused; ZSEL = 3 is an argument refused. -/
theorem unassignedOperationsAreRefused : Obligations.UnassignedOperationsAreRefused := by
  refine ⟨by decide +kernel, fun s hop rest more hidle hrequests hhop => ?_, fun s addr hidle => ?_⟩
  · have htaken : taken s = { s with requests := more } := by rw [taken, hrequests]; rfl
    have hdecode : fetched s (.descriptor (hop :: rest)) = .unassigned hop := by
      simp [fetched, decode, decodeDescriptor, hhop]
    have hstep : step s = refuseUnassigned (taken s) := by
      rw [step, hrequests]
      simp only [hdecode]
    rw [hstep, htaken, refuseUnassigned, operate_of_refused (s := { s with requests := more }) hidle rfl,
      errorEntry_invalidArgument (s := { s with requests := more }) hidle]
  · rw [badArgumentsAreRefused (.readWord 3 addr) s hidle (by simp [ArgumentsValid]) (.inl rfl),
      errorEntry_invalidArgument hidle]

/-- Settles O28: Build accepts the payload and leaves its frame. -/
theorem frameBuildCompletes : Obligations.FrameBuildCompletes := by
  intro opc p1 p2 pl s hidle hpl data body sum frame
  have hmax : 71 ≤ s.cfg.maxCmdSize.toNat := s.cfg.valid.1
  obtain ⟨hdata, hfits⟩ : data = payloadBytes pl ∧ 7 + data.length ≤ s.cfg.maxCmdSize.toNat := by
    rcases hpl with rfl | ⟨data, rfl, hpos, hlen⟩
    · exact ⟨rfl, by simp [data]; omega⟩
    · exact ⟨rfl, by simp [data]; omega⟩
  have hframe : frame = frameOf opc p1 p2 (payloadBytes pl) := by rw [← hdata]; rfl
  have hsum : sum = crc16 (frameBody opc p1 p2 (payloadBytes pl)) := by rw [← hdata]; rfl
  refine ⟨congrArg Host.Outcome.next ?_, by rw [hframe, frameOf_length, hdata], hfits⟩
  rw [operate_of_idle _ hidle, build_eq, accepted_cfg, if_pos ((payloadAccepted_iff _ _).mpr hpl), hframe, hsum]
  rfl

/-- Settles O31: the send alone. -/
theorem tokensAreOneSend : Obligations.TokensAreOneSend := by
  intro s hidle wakeSent sleepSent
  refine ⟨fun code h => ⟨?_, ?_⟩, fun h => ⟨?_, ?_⟩⟩
  · exact congrArg Host.Outcome.next (operate_send_of_fatal rfl hidle h)
  · exact congrArg Host.Outcome.next (operate_send_of_fatal rfl hidle h)
  · exact congrArg Host.Outcome.next ((operate_send_of_goesOn rfl hidle h).trans rfl)
  · exact congrArg Host.Outcome.next ((operate_send_of_goesOn rfl hidle h).trans rfl)

/-- Settles O30: the send, then the settle delay. -/
theorem sleepFollowsItsRule : Obligations.SleepFollowsItsRule := by
  intro s hidle sent
  refine ⟨fun code h => congrArg Host.Outcome.next (operate_send_of_fatal rfl hidle h), fun h => ?_⟩
  refine congrArg Host.Outcome.next ((operate_send_of_goesOn rfl hidle h).trans ?_)
  have htrace : s.trace ++ [sent, .wait s.cfg.tSleep] = s.trace ++ [sent] ++ [.wait s.cfg.tSleep] := by simp
  rw [htrace]
  rfl

/-- Settles O36: each wire command is the dispatcher's one exchange. -/
theorem wireCommandsComplete : Obligations.WireCommandsComplete := by
  intro i x s hx hvalid hidle hawake
  have hexec := exec_wire hx hvalid hidle hawake
  refine ⟨hexec, fun p h => ?_⟩
  obtain ⟨hend, hlen⟩ := afterPlan_answered h
  exact ⟨hexec.trans (congrArg _ hend), hlen⟩

/-- Settles O37: the zone selected, then its one exchange. -/
theorem readWordCompletes : Obligations.ReadWordCompletes := by
  intro zsel zone addr s p hidle hawake hzone h
  obtain ⟨hend, hlen⟩ := afterPlan_answered h
  have hcode : zoneCode s.cfg zsel = some zone := by
    rcases hzone with ⟨rfl, rfl⟩ | ⟨rfl, rfl⟩ | ⟨rfl, rfl⟩ <;> rfl
  refine ⟨congrArg Host.Outcome.next ?_, hlen⟩
  rw [← hend]
  refine operate_exchange ?_ hidle hawake (readExchange_taken s.cfg zone addr)
  rw [accepted_cfg, hcode]

/-- Settles O34: the reader accepts the intact responses, and no other (`verdict_eq_ok_iff`, `intact_iff`). -/
theorem transactReturnsIntactPayloads : Obligations.TransactReturnsIntactPayloads := by
  intro opc p1 p2 pl n ex dly s t hidle hawake hn hpl hone hsend hrecv ht
  obtain rfl := Host.Outcome.next.inj ((exec_transact hidle hawake hn hpl).symm.trans ht)
  obtain ⟨x, hx⟩ : ∃ x : Exchange, x = ⟨opc, p1, p2, pl, n.toNat, true, ex, dly⟩ := ⟨_, rfl⟩
  have hbytes : exchangeBytes x s = bytesAt s 1 (n.toNat + 3) := by
    have hmax : max 4 (n.toNat + 3) = n.toNat + 3 := by omega
    rw [exchangeBytes, hx, hmax]
  have hverdict (p : List Byte) : verdict x.expect x.check x.exact (exchangeBytes x s) = .ok p ↔
      2 ≤ n.toNat ∧ p.length = n.toNat ∧ bytesAt s 1 (n.toNat + 3) = intact p := by
    have hlen : (bytesAt s 1 (n.toNat + 3)).length = n.toNat + 3 := answerBytes_length _ _
    rw [hbytes, hx, verdict_eq_ok_iff hone hlen, intact_iff hn hlen]
  have hsuccess : (afterPlan complete [x] [] s).err0 = 0 ↔
      2 ≤ n.toNat ∧ ∃ p, p.length = n.toNat ∧ bytesAt s 1 (n.toNat + 3) = intact p := by
    simp only [afterPlan_err0_eq_zero_iff hsend hrecv, hverdict, exists_and_left]
  rw [← hx]
  refine ⟨fun h1 hzero => ?_, hsuccess, fun p hp htwo hintact => ?_⟩
  · have htwo : 2 ≤ n.toNat := (hsuccess.mp hzero).1
    subst h1
    exact absurd htwo (by decide)
  · have hanswered : Answers s [x] [p] := ⟨hsend, hrecv, (hverdict p).mpr ⟨htwo, hp, hintact⟩, trivial⟩
    rw [(afterPlan_answered hanswered).1, complete_result]

/-- Settles O29: the send, the settle delay, the receive, and the check of its first two bytes. -/
theorem wakeFollowsItsRule : Obligations.WakeFollowsItsRule := by
  intro s hidle buf sent events
  have hrun (hsend : GoesOn s.cfg (outcomeAt s 0)) :
      exec .wake s = .next ((recv s.cfg.busAddr 4 (wakeSettled s)).andThen acceptWake).finish :=
    congrArg Host.Outcome.next ((operate_send_of_goesOn rfl hidle hsend).trans rfl)
  have hanswered (hsend : GoesOn s.cfg (outcomeAt s 0)) (hrecv : GoesOn s.cfg (outcomeAt s 1)) :
      exec .wake s = .next
        (if wakeAccepted s.cfg buf then
          complete [] { later 2 s with rxBuf := buf, trace := events, session := .awake }
        else errorEntry (.wakeFailure (buf.getD 0 0) (buf.getD 1 0)) { later 2 s with rxBuf := buf, trace := events }) := by
    rw [hrun hsend, recv_of_goesOn (s := wakeSettled s) ((goesOn_iff s.cfg (outcomeAt s 1)).mp hrecv),
      record_wakeSettled, andThen_val, acceptWake_finish]
    rfl
  refine ⟨fun code h => congrArg Host.Outcome.next (operate_send_of_fatal rfl hidle h), fun code hsend h => ?_,
    fun hsend hrecv hbad => ?_, fun hsend hrecv hcount hstatus => ?_⟩
  · rw [hrun hsend, recv_of_fatal (s := wakeSettled s) ((classify_eq_fatal_iff s.cfg (outcomeAt s 1) code).mpr h),
      record_wakeSettled]
    rfl
  · have hrefused : ¬(buf.getD 0 0 = 4 ∧ buf.getD 1 0 = s.cfg.stWake) := not_and_or.mpr hbad
    rw [hanswered hsend hrecv, if_neg (mt (wakeAccepted_iff s.cfg buf).mp hrefused)]
  · rw [hanswered hsend hrecv, if_pos ((wakeAccepted_iff s.cfg buf).mpr ⟨hcount, hstatus⟩)]

end Sys2Proof.Proofs
end

section
/-! SUPPORT. The checksum is linear in the bits it takes and loses nothing of its register, so that one wrong bit
stands in every register after it; what CRC_VALIDATE and FRAME_BUILD answer from an idle state. -/

namespace Sys2Proof.Machine

/-! ### One bit and one byte (R121, R122) -/

/-- The bit step with its shift and its polynomial apart. -/
theorem crcBit_eq (reg : U16) (d : Bool) :
    crcBit reg d = (reg <<< 1) ^^^ (if d ^^ reg.msb then Config.crcPoly else 0#16) := by
  cases d <;> cases h : reg.msb <;> simp [crcBit, h]

theorem crcByte_eq (reg : U16) (b : Byte) :
    crcByte reg b = crcBit (crcBit (crcBit (crcBit (crcBit (crcBit (crcBit (crcBit reg (b.getLsbD 0)) (b.getLsbD 1))
      (b.getLsbD 2)) (b.getLsbD 3)) (b.getLsbD 4)) (b.getLsbD 5)) (b.getLsbD 6)) (b.getLsbD 7) := rfl

theorem crc16_concat (s : List Byte) (b : Byte) : crc16 (s ++ [b]) = crcByte (crc16 s) b := by
  rw [crc16_append, crcRun_cons, crcRun_nil]

/-! ### Linearity (R129, property 1) -/

theorem crcBit_xor (reg reg' : U16) (d d' : Bool) :
    crcBit (reg ^^^ reg') (d ^^ d') = crcBit reg d ^^^ crcBit reg' d' := by
  have hpoly (p q : Bool) : (if p ^^ q then Config.crcPoly else 0#16) =
      (if p then Config.crcPoly else 0#16) ^^^ (if q then Config.crcPoly else 0#16) := by
    cases p <;> cases q <;> rfl
  have htop : ((d ^^ d') ^^ (reg ^^^ reg').msb) = ((d ^^ reg.msb) ^^ (d' ^^ reg'.msb)) := by
    rw [BitVec.msb_xor, Bool.xor_assoc, Bool.xor_assoc, Bool.xor_left_comm d']
  rw [crcBit_eq, crcBit_eq, crcBit_eq, htop, hpoly, BitVec.shiftLeft_xor_distrib]
  ac_rfl

theorem crcByte_xor (reg reg' : U16) (b b' : Byte) :
    crcByte (reg ^^^ reg') (b ^^^ b') = crcByte reg b ^^^ crcByte reg' b' := by
  simp only [crcByte_eq, BitVec.getLsbD_xor, crcBit_xor]

theorem crcRun_xor {a b : List Byte} (h : a.length = b.length) (reg reg' : U16) :
    crcRun (reg ^^^ reg') (List.zipWith (· ^^^ ·) a b) = crcRun reg a ^^^ crcRun reg' b := by
  induction a generalizing b reg reg' with
  | nil =>
    obtain rfl := List.length_eq_zero_iff.mp h.symm
    rfl
  | cons x a ih =>
    cases b with
    | nil => cases h
    | cons y b => simp only [List.zipWith_cons_cons, crcRun_cons, crcByte_xor, ih (Nat.succ.inj h)]

/-! ### Nothing of the register is lost -/

/-- The polynomial has bit 0, so that bit 0 of the next register tells whether it was applied. -/
theorem crcBit_getLsbD_zero (reg : U16) (d : Bool) : (crcBit reg d).getLsbD 0 = (d ^^ reg.msb) := by
  rw [crcBit_eq]
  cases d ^^ reg.msb <;> simp [Config.crcPoly]

theorem crcBit_inj {reg reg' : U16} {d : Bool} : crcBit reg d = crcBit reg' d ↔ reg = reg' := by
  refine ⟨fun h => ?_, fun h => h ▸ rfl⟩
  have htop : (d ^^ reg.msb) = (d ^^ reg'.msb) := by
    rw [← crcBit_getLsbD_zero, h, crcBit_getLsbD_zero]
  have hshift : reg <<< 1 = reg' <<< 1 := by
    rw [crcBit_eq, crcBit_eq, htop] at h
    exact (BitVec.xor_left_inj _).mp h
  refine BitVec.eq_of_getElem_eq fun i hi => ?_
  by_cases hlast : i = 15
  · subst hlast
    exact Bool.xor_right_inj.mp htop
  · have hnext := congrArg (·.getLsbD (i + 1)) hshift
    simpa [show i + 1 < 16 by omega] using hnext

theorem crcByte_inj {reg reg' : U16} {b : Byte} : crcByte reg b = crcByte reg' b ↔ reg = reg' := by
  simp only [crcByte_eq, crcBit_inj]

theorem crcRun_inj {reg reg' : U16} {s : List Byte} : crcRun reg s = crcRun reg' s ↔ reg = reg' := by
  induction s generalizing reg reg' with
  | nil => rfl
  | cons b s ih => rw [crcRun_cons, crcRun_cons, ih, crcByte_inj]

/-! ### One wrong bit (R129, property 3) -/

/-- A byte with one bit set leaves the zero register nonzero. -/
theorem crcByte_twoPow_ne_zero : ∀ k < 8, crcByte 0#16 (BitVec.twoPow 8 k) ≠ 0#16 := by decide

theorem crcByte_flip_ne (reg : U16) (b : Byte) {k : Nat} (hk : k < 8) :
    crcByte reg (b ^^^ BitVec.twoPow 8 k) ≠ crcByte reg b := by
  have hlinear : crcByte reg (b ^^^ BitVec.twoPow 8 k) = crcByte reg b ^^^ crcByte 0#16 (BitVec.twoPow 8 k) := by
    rw [← crcByte_xor, BitVec.xor_zero]
  rw [hlinear]
  exact fun h => crcByte_twoPow_ne_zero k hk ((BitVec.xor_right_inj _).mp (h.trans BitVec.xor_zero.symm))

theorem flip_ne (b : Byte) {k : Nat} (hk : k < 8) : b ^^^ BitVec.twoPow 8 k ≠ b :=
  fun h => crcByte_flip_ne 0 b hk (congrArg (crcByte 0) h)

theorem crc16_set_flip_ne {s : List Byte} {j k : Nat} {b : Byte} (hb : s[j]? = some b) (hk : k < 8) :
    crc16 (s.set j (b ^^^ BitVec.twoPow 8 k)) ≠ crc16 s := by
  obtain ⟨hj, rfl⟩ := List.getElem?_eq_some_iff.mp hb
  have hs : s = s.take j ++ s[j] :: s.drop (j + 1) := by simp
  rw [List.set_eq_take_append_cons_drop, if_pos hj]
  conv_rhs => rw [hs]
  rw [crc16_append, crc16_append, crcRun_cons, crcRun_cons]
  exact fun h => crcByte_flip_ne _ _ hk (crcRun_inj.mp h)

/-- A flip among the bytes covered changes their checksum and leaves the trailer; a flip in the trailer changes the
trailer and leaves the checksum. -/
theorem validate_set_flip {f : List Byte} (hf : validate f = true) {j k : Nat} {b : Byte} (hb : f[j]? = some b)
    (hk : k < 8) : validate (f.set j (b ^^^ BitVec.twoPow 8 k)) = false := by
  refine Bool.eq_false_iff.mpr fun hflip => ?_
  obtain ⟨s, -, rfl⟩ := (validate_iff f).mp hf
  obtain ⟨s', -, hs'⟩ := (validate_iff _).mp hflip
  rw [withTrailer, withTrailer, List.set_append] at hs'
  split at hs'
  · next hj =>
    obtain ⟨rfl, htrailer⟩ := List.append_inj' hs' rfl
    rw [withTrailer, List.getElem?_append_left hj] at hb
    have hsum := congrArg unle16 htrailer
    rw [unle16_le16_alone, unle16_le16_alone] at hsum
    exact crc16_set_flip_ne hb hk hsum.symm
  · next hj =>
    obtain ⟨rfl, htrailer⟩ := List.append_inj' hs' (by simp)
    rw [withTrailer, List.getElem?_append_right (Nat.le_of_not_lt hj)] at hb
    have hlt := (List.getElem?_eq_some_iff.mp hb).1
    have hsame : some (b ^^^ BitVec.twoPow 8 k) = some b := by rw [← List.getElem?_set_self hlt, htrailer, hb]
    exact flip_ne b hk (Option.some.inj hsame)

/-- A frame carries its own trailer (R129, property 2). -/
theorem validate_frameOf (opc p1 : Byte) (p2 : U16) (data : List Byte) : validate (frameOf opc p1 p2 data) = true :=
  (validate_iff _).mpr ⟨_, List.cons_ne_nil _ _, rfl⟩

/-! ### The operations from an idle state (R126, R128, R145) -/

theorem exec_crcCompute {s : State} (hidle : s.busy = false) (data : List Byte) :
    exec (.crcCompute data) s = .next (complete (le16 (crc16 data)) { s with crcReg := crc16 data }) :=
  congrArg Host.Outcome.next (operate_of_idle _ hidle)

theorem exec_crcValidate {s : State} (hidle : s.busy = false) (data : List Byte) :
    exec (.crcValidate data) s = .next (complete [bitByte (validate data)]
      (if data.length < 3 then s else { s with crcReg := crc16 (covered data) })) := by
  refine congrArg Host.Outcome.next ((operate_of_idle _ hidle).trans ?_)
  split <;> rfl

/-- CRC_VALIDATE answers 0x01 exactly on what Validate accepts. -/
theorem bitByte_eq_one_iff (p : Bool) : bitByte p = 0x01 ↔ p = true := by cases p <;> decide

/-- FRAME_BUILD that ends without an error has returned a frame. -/
theorem frameBuild_result {opc p1 : Byte} {p2 : U16} {pl : Payload} {s t : State} (hidle : s.busy = false)
    (h : exec (.frameBuild opc p1 p2 pl) s = .next t) (hok : t.err0 = 0) :
    t.busy = false ∧ t.result = frameOf opc p1 p2 (payloadBytes pl) := by
  obtain rfl : (build opc p1 p2 pl (accepted s)).finish = t :=
    (operate_of_idle _ hidle).symm.trans (Host.Outcome.next.inj h)
  rw [build_eq] at hok ⊢
  split at hok
  · next hpl => exact ⟨finish_busy _, by rw [if_pos hpl]; rfl⟩
  · exact absurd hok (err0_ne_zero .invalidArgument)

end Sys2Proof.Machine
end

section
/-! PROOF. The statements about the checksum engine (40_checksum.md). -/

namespace Sys2Proof.Proofs

open Machine

/-- Settles O26: no register after the flipped bit is what it was (`crcRun_inj`), and a flip in the trailer leaves the
checksum (`validate_set_flip`). -/
theorem singleBitFlipsAreDetected : Obligations.SingleBitFlipsAreDetected := by
  intro f s t hidle ht hresult j k b hb hk
  rw [exec_crcValidate hidle] at ht
  obtain rfl := Host.Outcome.next.inj ht
  have hf : validate f = true := (bitByte_eq_one_iff _).mp (List.singleton_inj.mp hresult)
  refine ⟨_, exec_crcValidate hidle _, ?_, rfl⟩
  rw [complete_result, validate_set_flip hf hb hk]
  rfl

/-- Settles O24: the bit step is linear, and so is every run of it; both start at zero. -/
theorem checksumIsLinear : Obligations.ChecksumIsLinear :=
  fun _ _ h => crcRun_xor h Config.crcInit Config.crcInit

/-- Settles O25: what FRAME_BUILD returns carries its own trailer. -/
theorem builtFramesValidate : Obligations.BuiltFramesValidate := by
  intro opc p1 p2 pl s t hidle ht hok
  obtain ⟨hidle', hresult⟩ := frameBuild_result hidle ht hok
  refine ⟨_, exec_crcValidate hidle' _, ?_, rfl⟩
  rw [complete_result, hresult, validate_frameOf]
  rfl

/-- Settles O27: Validate's answer is its comparison written out. -/
theorem checksumOperationsComplete : Obligations.ChecksumOperationsComplete := by
  refine fun data s hidle => ⟨exec_crcCompute hidle data, (exec_crcValidate hidle data).trans (congrArg _ ?_)⟩
  by_cases hshort : data.length < 3
  · simp [hshort, validate, bitByte]
  · simp [hshort, validate, bitByte, covered, trailer]

/-- Settles O23: the loops of the model, unrolled. -/
theorem checksumIsBitSerial : Obligations.ChecksumIsBitSerial := by
  refine ⟨fun reg d => ?_, crcByte_eq, rfl, crc16_concat⟩
  have hmsb : reg.msb = reg.getLsbD 15 := rfl
  simp only [crcBit, bne_iff_ne, hmsb, Config.crcPoly]

end Sys2Proof.Proofs
end

section
/-! SUPPORT. The three ends of one exchange: a fatal send, a fatal receive, and the row of the reader's table that the
response meets. -/

namespace Sys2Proof.Machine

/-- The reader's table as a chain of its rows, the two kinds of response apart (R163-R169). -/
theorem verdict_eq_rows (n : Nat) (check exact : Bool) (buf : List Byte) :
    verdict n check exact buf =
      let c := (buf.getD 0 0).toNat
      let rx := unle16 ((buf.take c).drop (c - 2))
      let sum := crc16 (buf.take (c - 2))
      if c < 4 then .error (.malformedFrame (buf.getD 0 0))
      else if c > max 4 (n + 3) then .error (.malformedFrame (buf.getD 0 0))
      else if c = 4 then
        if buf.getD 1 0 ≠ 0x00 then .error (.deviceStatus (buf.getD 1 0))
        else if n > 0 then .error .emptySuccess
        else .ok []
      else if exact = true ∧ c ≠ n + 3 then .error (.malformedFrame (buf.getD 0 0))
      else if c - 3 < n then .error (.insufficientData (buf.getD 0 0))
      else if check = true ∧ rx ≠ sum then .error (.integrity rx sum)
      else .ok ((buf.drop 1).take n) := by
  obtain ⟨c, hc⟩ : ∃ c, (buf.getD 0 0).toNat = c := ⟨_, rfl⟩
  simp only [verdict, hc]
  by_cases hlow : c < 4
  · rw [if_pos hlow, if_pos hlow]
  by_cases hhigh : c > max 4 (n + 3)
  · rw [if_neg hlow, if_neg hlow, if_pos hhigh, if_pos hhigh]
  rw [if_neg hlow, if_neg hlow, if_neg hhigh, if_neg hhigh]
  by_cases hc4 : c = 4
  · by_cases hsuccess : buf.getD 1 0 = 0x00
    · rcases n.eq_zero_or_pos with rfl | hn
      · simp only [hc4, hsuccess, lt_irrefl, ne_eq, not_true_eq_false, and_false, and_self, if_true, if_false]
      · simp only [hc4, hsuccess, hn, ne_eq, not_true_eq_false, and_false, and_self, if_true, if_false]
    · simp only [hc4, hsuccess, ne_eq, not_false_eq_true, and_self, if_true]
  · have hdata : c > 4 := by omega
    simp only [hc4, hdata, false_and, true_and, if_false]

/-- How an exchange whose response is parsed ends: in the error entry or in completion (R311, R312). -/
def ended (t : State) : Except Err (List Byte) → State
  | .error e => errorEntry e t
  | .ok p => complete p t

@[simp] theorem ended_error (t : State) (e : Err) : ended t (.error e) = errorEntry e t := rfl
@[simp] theorem ended_ok (t : State) (p : List Byte) : ended t (.ok p) = complete p t := rfl

theorem afterPlan_of_fatal_send {x : Exchange} {s : State} {code : U32}
    (h : classify s.cfg (outcomeAt s 0) = .fatal code) :
    afterPlan complete [x] [] s = errorEntry (.transport code) (sentOnly x s) := by
  simp only [afterPlan, h]

theorem afterPlan_of_fatal_recv {x : Exchange} {s : State} {code : U32} (hsend : GoesOn s.cfg (outcomeAt s 0))
    (h : classify s.cfg (outcomeAt s 1) = .fatal code) :
    afterPlan complete [x] [] s = errorEntry (.transport code) (unparsed x s) := by
  rw [goesOn_iff] at hsend
  simp only [afterPlan, h]

/-- One exchange whose transactions both go on ends as the reader says (R171). -/
theorem afterPlan_of_goesOn {x : Exchange} {s : State} (hsend : GoesOn s.cfg (outcomeAt s 0))
    (hrecv : GoesOn s.cfg (outcomeAt s 1)) :
    afterPlan complete [x] [] s = ended (exchanged x s) (verdict x.expect x.check x.exact (exchangeBytes x s)) := by
  cases hv : verdict x.expect x.check x.exact (exchangeBytes x s) with
  | error e => exact afterPlan_refused hsend hrecv hv
  | ok p =>
    have hanswered : Answers s [x] [p] := ⟨hsend, hrecv, hv, trivial⟩
    exact (afterPlan_answered hanswered).1

end Sys2Proof.Machine
end

section
/-! PROOF. The statements about TRANSACT and the response reader (42_reader.md, 44_dispatcher.md). -/

namespace Sys2Proof.Proofs

open Machine

/-- Settles O35: the dispatcher's one exchange, answered. -/
theorem transactCompletes : Obligations.TransactCompletes := by
  intro opc p1 p2 pl n chk ex dly s p hidle hawake hn hpl h
  obtain ⟨hend, hlen⟩ := afterPlan_answered h
  exact ⟨(exec_transact hidle hawake hn hpl).trans (congrArg _ hend), hlen⟩

/-- Settles O33: the exchange ends at its send, at its receive, or by the row of the reader's table. -/
theorem transactFollowsTheReadersTable : Obligations.TransactFollowsTheReadersTable := by
  intro opc p1 p2 pl n chk ex dly s hidle hawake hn hpl x buf c rx sum t
  refine (exec_transact hidle hawake hn hpl).trans (congrArg _ ?_)
  split
  · next hsend => exact afterPlan_of_fatal_send hsend
  · next hrecv hsend => exact afterPlan_of_fatal_recv ((goesOn_iff _ _).mpr hsend) hrecv
  · next hsend hrecv =>
    calc afterPlan complete [x] [] s
      _ = ended t (verdict n.toNat chk ex buf) :=
        afterPlan_of_goesOn ((goesOn_iff _ _).mpr hsend) ((goesOn_iff _ _).mpr hrecv)
      _ = _ := by simp only [verdict_eq_rows, apply_ite (ended t), ended_error, ended_ok, c, rx, sum]

end Sys2Proof.Proofs
end

section
/-! SUPPORT. The settle timer tick by tick; an operation outside Awake; what every part of an operation does to
SESSION. -/

namespace Sys2Proof.Machine

/-! ### The settle timer (R191) -/

/-- Ticks count the timer down and touch nothing else. -/
theorem tick_iterate (k : Nat) (s : State) : tick^[k] s = { s with timer := s.timer - k } := by
  induction k with
  | zero => rfl
  | succ k ih =>
    rw [Function.iterate_succ_apply', ih, tick, Nat.sub_sub]

/-- As many ticks as it was loaded with bring the timer to 0. -/
theorem tick_iterate_loadTimer (ticks : U32) (s : State) :
    tick^[ticks.toNat] (loadTimer ticks s) = { loadTimer ticks s with timer := 0 } := by
  rw [tick_iterate, loadTimer_timer, Nat.sub_self]

/-! ### Outside Awake (R197, R302) -/

theorem require_of_holds {p : Bool} (body : State → Reply (List Byte)) (s : State) (h : p = true) :
    require p body s = body s := by
  rw [require_eq, if_pos h]

theorem awakeGate_of_not_awake (body : State → Reply (List Byte)) {s : State} (h : s.session ≠ .awake) :
    awakeGate body s = .raised .notAwake s := by
  rw [awakeGate_eq, if_neg h]

/-- An operation that begins with the Awake gate ends there. -/
theorem operate_gate_of_not_awake {body gated : State → Reply (List Byte)} {s : State}
    (hbody : body (accepted s) = awakeGate gated (accepted s)) (hidle : s.busy = false) (hs : s.session ≠ .awake) :
    operate body s = errorEntry .notAwake s :=
  operate_of_refused hidle (hbody.trans (awakeGate_of_not_awake gated hs))

/-- The raw dispatcher has built its frame when it comes to the gate (R222). -/
theorem operate_dispatch_of_not_awake {body : State → Reply (List Byte)} {s : State} {x : Exchange}
    (hbody : body (accepted s) = dispatch x (accepted s)) (hidle : s.busy = false) (hs : s.session ≠ .awake)
    (hpl : PayloadTaken s.cfg x.pl) : operate body s = errorEntry .notAwake (framed x s) := by
  have haccepted : payloadAccepted (accepted s).cfg.maxCmdSize x.pl = true := (payloadAccepted_iff _ _).mpr hpl
  have hgate : (accepted s).session ≠ .awake := hs
  rw [operate_of_idle body hidle, hbody, dispatch_finish, if_pos haccepted, if_neg hgate]
  rfl

/-- ZSEL = 0, 1, 2 name the three zones (R95, R241). -/
theorem zoneCode_eq_some {zsel : BitVec 2} (c : Cfg) (h : zsel.toNat ≤ 2) :
    ∃ zone, zoneCode c zsel = some zone := by
  obtain rfl | rfl | rfl : zsel = 0 ∨ zsel = 1 ∨ zsel = 2 := by bv_omega
  · exact ⟨c.zoneConfig, rfl⟩
  · exact ⟨c.zoneOtp, rfl⟩
  · exact ⟨c.zoneData, rfl⟩

/-- A library operation with valid arguments comes to the Awake gate first (R240). -/
theorem exec_library_of_not_awake {i : Instr} {s : State} (hi : kindOf i = .library) (hvalid : ArgumentsValid s.cfg i)
    (hidle : s.busy = false) (hs : s.session ≠ .awake) : exec i s = .next (errorEntry .notAwake s) := by
  cases i with
  | readWord zsel addr =>
    obtain ⟨zone, hzone⟩ := zoneCode_eq_some s.cfg hvalid
    refine congrArg Host.Outcome.next
      (operate_gate_of_not_awake (gated := exchange (readExchange s.cfg zone addr)) ?_ hidle hs)
    rw [accepted_cfg, hzone]
  | readSerial | readConfigZone | readLockStatus | hash =>
    exact congrArg Host.Outcome.next (operate_gate_of_not_awake rfl hidle hs)
  | random k =>
    have hk : countInRange k = true := (countInRange_iff k).mpr hvalid
    exact congrArg Host.Outcome.next (operate_gate_of_not_awake (require_of_holds _ _ hk) hidle hs)
  | randomRange lo hi =>
    exact congrArg Host.Outcome.next
      (operate_gate_of_not_awake (require_of_holds _ _ (decide_eq_true hvalid)) hidle hs)
  | aesEncrypt slot blk | aesDecrypt slot blk =>
    exact congrArg Host.Outcome.next
      (operate_gate_of_not_awake (require_of_holds _ _ (beq_iff_eq.mpr hvalid)) hidle hs)
  | _ => cases hi

theorem exec_transact_of_not_awake {x : Exchange} {n : Byte} {s : State}
    (hvalid : ArgumentsValid s.cfg (.transact x.opc x.p1 x.p2 x.pl n x.check x.exact x.delay))
    (hidle : s.busy = false) (hs : s.session ≠ .awake) :
    exec (.transact x.opc x.p1 x.p2 x.pl n x.check x.exact x.delay) s = .next (errorEntry .notAwake (framed x s)) := by
  obtain ⟨hn, hpl⟩ := hvalid
  exact congrArg Host.Outcome.next (operate_dispatch_of_not_awake
    (x := hostExchange x.opc x.p1 x.p2 x.pl n x.check x.exact x.delay)
    (require_of_holds _ _ (decide_eq_true hn)) hidle hs hpl)

theorem exec_wire_of_not_awake {i : Instr} {x : Exchange} {s : State} (hx : wireExchange s.cfg i = some x)
    (hvalid : ArgumentsValid s.cfg i) (hidle : s.busy = false) (hs : s.session ≠ .awake) :
    exec i s = .next (errorEntry .notAwake (framed x s)) := by
  have hpl : PayloadTaken s.cfg x.pl := wireExchange_taken hx hvalid
  cases i with
  | cmdWrite p1 p2 pl n chk ex dly =>
    cases hx
    exact congrArg Host.Outcome.next (operate_dispatch_of_not_awake
      (require_of_holds _ _ (decide_eq_true hvalid.1)) hidle hs hpl)
  | cmdRead | cmdRandom | cmdShaStart | cmdShaUpdate | cmdShaEnd | cmdAesEnc | cmdAesDec =>
    cases hx
    exact congrArg Host.Outcome.next (operate_dispatch_of_not_awake rfl hidle hs hpl)
  | _ => cases hx

/-! ### SESSION in the parts of an operation (R195, R198) -/

/-- The part leaves SESSION at σ, and the one error it may raise that faults the session is TRANSPORT (code 3, R30). -/
def Reply.KeepsSession {α : Type} (σ : Session) : Reply α → Prop
  | .val _ t => t.session = σ
  | .raised e t => t.session = σ ∧ (e.faultsSession = true ↔ e.code = 3)

section
variable {α β : Type} {σ : Session}

theorem Reply.KeepsSession.andThen {r : Reply α} {f : α → State → Reply β} (h : r.KeepsSession σ)
    (hf : ∀ a t, (f a t).KeepsSession t.session) : (r.andThen f).KeepsSession σ := by
  cases r with
  | val a t => exact (show t.session = σ from h) ▸ hf a t
  | raised e t => exact h

theorem Reply.KeepsSession.output {r : Reply (List Byte)} (h : r.KeepsSession σ) (f : List Byte → List Byte) :
    (r.output f).KeepsSession σ :=
  h.andThen fun _ _ => rfl

/-- TRANSPORT leads to Faulted and every other end leaves SESSION as it was (R195). -/
theorem Reply.KeepsSession.finish {r : Reply (List Byte)} (h : r.KeepsSession σ) :
    r.finish.session = if errCode r.finish.err0 = 3 then .faulted else σ := by
  cases r with
  | val p t =>
    have hcode : errCode (complete p t).err0 ≠ 3 := by rw [complete_err0, errCode_packErr0]; decide
    rw [finish_val, if_neg hcode]
    exact h
  | raised e t =>
    obtain ⟨hsession, hfaults⟩ := h
    simp only [finish_raised, errorEntry_session, errorEntry_err0, errCode_err0, hfaults, hsession]

end

theorem invalidArgument_keepsSession {α : Type} (s : State) :
    (Reply.raised .invalidArgument s : Reply α).KeepsSession s.session :=
  ⟨rfl, by decide⟩

theorem transport_keepsSession {α : Type} {s t : State} (h : t.session = s.session) (code : U32) :
    (Reply.raised (.transport code) t : Reply α).KeepsSession s.session :=
  ⟨h, iff_of_true rfl rfl⟩

theorem require_keepsSession (p : Bool) {body : State → Reply (List Byte)} {s : State}
    (h : (body s).KeepsSession s.session) : (require p body s).KeepsSession s.session := by
  rw [require_eq]
  split
  · exact h
  · exact invalidArgument_keepsSession s

theorem awakeGate_keepsSession {body : State → Reply (List Byte)} {s : State} (h : (body s).KeepsSession s.session) :
    (awakeGate body s).KeepsSession s.session := by
  rw [awakeGate_eq]
  split
  · exact h
  · exact ⟨rfl, by decide⟩

theorem send_keepsSession (addr : BusAddr) (bytes : List Byte) (s : State) :
    (send addr bytes s).KeepsSession s.session := by
  rw [send_eq]
  dsimp only
  split
  · exact transport_keepsSession rfl _
  · rfl

/-- The reader raises neither TRANSPORT nor WAKE_FAILURE (R163-R168). -/
theorem verdict_error_keepsSession {n : Nat} {check exact : Bool} {buf : List Byte} {e : Err}
    (h : verdict n check exact buf = .error e) : e.faultsSession = true ↔ e.code = 3 := by
  simp only [verdict] at h
  repeat' split at h
  all_goals cases h <;> exact iff_of_false nofun nofun

theorem build_keepsSession (opc p1 : Byte) (p2 : U16) (pl : Payload) (s : State) :
    (build opc p1 p2 pl s).KeepsSession s.session := by
  rw [build_eq]
  split
  · rfl
  · exact invalidArgument_keepsSession s

theorem receive_keepsSession (n : Nat) (check exact : Bool) (s : State) :
    (receive n check exact s).KeepsSession s.session := by
  rw [receive_eq]
  split
  · exact transport_keepsSession rfl _
  · split
    · next e he => exact ⟨rfl, verdict_error_keepsSession he⟩
    · rfl

theorem exchange_keepsSession (x : Exchange) (s : State) : (exchange x s).KeepsSession s.session :=
  (build_keepsSession x.opc x.p1 x.p2 x.pl s).andThen fun _ t =>
    (send_keepsSession _ _ t).andThen fun _ u =>
      (receive_keepsSession x.expect x.check x.exact (wait x.delay u)).andThen fun _ _ => rfl

theorem gather_keepsSession (xs : List Exchange) (s : State) : (gather xs s).KeepsSession s.session := by
  induction xs generalizing s with
  | nil => rfl
  | cons x xs ih => exact (exchange_keepsSession x s).andThen fun p t => ih { t with acc := t.acc ++ p }

theorem dispatch_keepsSession (x : Exchange) (s : State) : (dispatch x s).KeepsSession s.session :=
  (build_keepsSession x.opc x.p1 x.p2 x.pl s).andThen fun _ t => awakeGate_keepsSession (exchange_keepsSession x t)

theorem decodeLock_keepsSession (word : List Byte) (s : State) : (decodeLock word s).KeepsSession s.session := by
  rw [decodeLock]
  split
  · rfl
  · exact ⟨rfl, by decide⟩

/-! ### SESSION after an operation (R190, R196) -/

theorem operate_session {body : State → Reply (List Byte)} {s t : State} (hidle : s.busy = false)
    (h : (.next (operate body s) : Host.Outcome State Fault Refusal) = .next t)
    (hbody : ∀ u, (body u).KeepsSession u.session) :
    t.session = if errCode t.err0 = 3 then .faulted else s.session := by
  obtain rfl := Host.Outcome.next.inj h
  rw [operate_of_idle body hidle]
  exact (hbody (accepted s)).finish

/-- A command or a token changes SESSION by TRANSPORT alone. -/
theorem exec_command_session {i : Instr} {s t : State} (hidle : s.busy = false) (h : exec i s = .next t)
    (hlocal : isLocal i = false) (hwake : i ≠ .wake) (hsleep : i ≠ .sleep) :
    t.session = if errCode t.err0 = 3 then .faulted else s.session := by
  cases i with
  | crcCompute | crcValidate | frameBuild => cases hlocal
  | wake => exact absurd rfl hwake
  | sleep => exact absurd rfl hsleep
  | readWord zsel addr =>
    refine operate_session hidle h fun s => ?_
    split
    · exact invalidArgument_keepsSession s
    · exact awakeGate_keepsSession (exchange_keepsSession _ s)
  | readSerial =>
    exact operate_session hidle h fun s => awakeGate_keepsSession ((gather_keepsSession _ s).output _)
  | readConfigZone | hash =>
    exact operate_session hidle h fun s => awakeGate_keepsSession (gather_keepsSession _ s)
  | readLockStatus =>
    exact operate_session hidle h fun s =>
      awakeGate_keepsSession ((exchange_keepsSession _ s).andThen decodeLock_keepsSession)
  | random | randomRange =>
    exact operate_session hidle h fun s =>
      require_keepsSession _ (awakeGate_keepsSession ((exchange_keepsSession _ s).output _))
  | aesEncrypt | aesDecrypt =>
    exact operate_session hidle h fun s => require_keepsSession _ (awakeGate_keepsSession (exchange_keepsSession _ s))
  | transact | cmdWrite =>
    exact operate_session hidle h fun s => require_keepsSession _ (dispatch_keepsSession _ s)
  | cmdRead | cmdRandom | cmdShaStart | cmdShaUpdate | cmdShaEnd | cmdAesEnc | cmdAesDec =>
    exact operate_session hidle h fun s => dispatch_keepsSession _ s
  | tokenWake | tokenSleep =>
    exact operate_session hidle h fun s => (send_keepsSession _ _ s).andThen fun _ _ => rfl

/-- The checksum and framer operations leave SESSION alone (R198). -/
theorem exec_local_session {i : Instr} {s t : State} (hi : isLocal i = true) (hidle : s.busy = false)
    (h : exec i s = .next t) : t.session = s.session := by
  cases i with
  | crcCompute data =>
    obtain rfl := Host.Outcome.next.inj ((exec_crcCompute hidle data).symm.trans h)
    rfl
  | crcValidate data =>
    obtain rfl := Host.Outcome.next.inj ((exec_crcValidate hidle data).symm.trans h)
    rw [complete_session]
    split <;> rfl
  | frameBuild opc p1 p2 pl =>
    obtain rfl := Host.Outcome.next.inj h
    rw [operate_of_idle _ hidle, build_eq]
    split <;> rfl
  | _ => cases hi

/-- The session is σ after success and Faulted after an error: the ends of WAKE and SLEEP (R190, R196). -/
def EndsIn (σ : Session) (t : State) : Prop := t.session = if t.err0 = 0 then σ else .faulted

theorem complete_endsIn {σ : Session} {s : State} (h : s.session = σ) (r : List Byte) : EndsIn σ (complete r s) := by
  rw [EndsIn, complete_session, h, complete_err0, if_pos (show packErr0 0 0 0 = 0 from rfl)]

theorem errorEntry_endsIn {e : Err} (h : e.faultsSession = true) (σ : Session) (s : State) :
    EndsIn σ (errorEntry e s) := by
  rw [EndsIn, errorEntry_session, if_pos h, errorEntry_err0, if_neg (err0_ne_zero e)]

/-- An outcome lets the block go on or is FATAL (R63). -/
theorem goesOn_or_fatalWith (c : Cfg) (o : XOutcome) : GoesOn c o ∨ ∃ code, FatalWith c o code := by
  simp only [goesOn_iff, ← classify_eq_fatal_iff]
  by_cases h : ∃ code, classify c o = .fatal code
  · exact .inr h
  · exact .inl (not_exists.mp h)

end Sys2Proof.Machine
end

section
/-! PROOF. The statements about the sequencer (43_sequencer.md). -/

namespace Sys2Proof.Proofs

open Machine

/-- Settles O32: a tick is a decrement of the timer, and the loaded timer runs out after T of them. -/
theorem settleTimerRunsOut : Obligations.SettleTimerRunsOut := by
  intro ticks s
  refine ⟨fun k => ?_, rfl, ?_⟩
  · rw [tick_iterate, loadTimer_timer]
  · rw [tick_iterate_loadTimer]
    rfl

/-- Settles O19: a library operation comes to the Awake gate at once, the raw dispatcher with its frame built. -/
theorem commandsNeedAwake : Obligations.CommandsNeedAwake := by
  refine ⟨fun i s hidle hs hvalid hcommand hnot => ?_, fun i x s hidle hs hvalid hi => ?_⟩
  · obtain htransact | hlibrary : kindOf i = .transact ∨ kindOf i = .library := by simpa [isCommand] using hcommand
    · cases i with
      | transact => exact absurd rfl (hnot _ _ _ _ _ _ _ _)
      | _ => cases htransact
    · exact exec_library_of_not_awake hlibrary hvalid hidle hs
  · rcases hi with hx | ⟨n, rfl⟩
    · exact exec_wire_of_not_awake hx hvalid hidle hs
    · exact exec_transact_of_not_awake hvalid hidle hs

/-- WAKE's four ends (R192, R193), each by what it leaves in SESSION. -/
theorem wake_endsIn_awake {s t : State} (hidle : s.busy = false) (h : exec .wake s = .next t) : EndsIn .awake t := by
  obtain ⟨hfatal, hfatal', hrefused, haccepted⟩ := wakeFollowsItsRule s hidle
  rcases goesOn_or_fatalWith s.cfg (outcomeAt s 0) with hsend | ⟨code, hcode⟩
  · rcases goesOn_or_fatalWith s.cfg (outcomeAt s 1) with hrecv | ⟨code, hcode⟩
    · by_cases hok : (bytesAt s 1 4).getD 0 0 = 4 ∧ (bytesAt s 1 4).getD 1 0 = s.cfg.stWake
      · obtain ⟨hcount, hstatus⟩ := hok
        obtain rfl := Host.Outcome.next.inj ((haccepted hsend hrecv hcount hstatus).symm.trans h)
        exact complete_endsIn rfl _
      · obtain rfl := Host.Outcome.next.inj ((hrefused hsend hrecv (not_and_or.mp hok)).symm.trans h)
        exact errorEntry_endsIn rfl _ _
    · obtain rfl := Host.Outcome.next.inj ((hfatal' code hsend hcode).symm.trans h)
      exact errorEntry_endsIn rfl _ _
  · obtain rfl := Host.Outcome.next.inj ((hfatal code hcode).symm.trans h)
    exact errorEntry_endsIn rfl _ _

/-- SLEEP's two ends (R194), each by what it leaves in SESSION. -/
theorem sleep_endsIn_asleep {s t : State} (hidle : s.busy = false) (h : exec .sleep s = .next t) :
    EndsIn .asleep t := by
  obtain ⟨hfatal, hgoes⟩ := sleepFollowsItsRule s hidle
  rcases goesOn_or_fatalWith s.cfg (outcomeAt s 0) with hsend | ⟨code, hcode⟩
  · obtain rfl := Host.Outcome.next.inj ((hgoes hsend).symm.trans h)
    exact complete_endsIn rfl _
  · obtain rfl := Host.Outcome.next.inj ((hfatal code hcode).symm.trans h)
    exact errorEntry_endsIn rfl _ _

/-- Settles O18: the ends of WAKE and SLEEP by their rules; every part of the other operations keeps SESSION. -/
theorem sessionFollowsTheTable : Obligations.SessionFollowsTheTable := by
  intro i s t hidle h
  cases i with
  | crcCompute | crcValidate | frameBuild => exact exec_local_session rfl hidle h
  | wake => exact wake_endsIn_awake hidle h
  | sleep => exact sleep_endsIn_asleep hidle h
  | _ => exact exec_command_session hidle h rfl nofun nofun

end Sys2Proof.Proofs
end

section
/-! SUPPORT. What a command puts on the port: the exchanges of its plan, one after another, up to the one that ends it. -/

namespace Sys2Proof.Machine

/-! ### Events that follow a plan (R221, R223, R224) -/

/-- The events are whole exchanges, of which only the last may stop at a FATAL outcome, and their sends carry the commands
of the plan xs in order (R85, R221, R223). -/
structure Follows (c : Cfg) (xs : List Exchange) (events : List Event) : Prop where
  exchanges : exchangeEvents c events = true
  sends : sentBytes events <+: xs.map fun x => onWire c (exchangeFrame x)

section
variable {c : Cfg} {x : Exchange} {xs : List Exchange} {events : List Event} {addr addr' : BusAddr} {ticks : U32}
  {len : Nat} {buf : List Byte} {o o' : XOutcome} {code : U32}

theorem Follows.nil (c : Cfg) (xs : List Exchange) : Follows c xs [] := ⟨rfl, List.nil_prefix⟩

/-- A FATAL send is the whole of its exchange, and the last event. -/
theorem Follows.of_fatal_send (hsend : classify c o = .fatal code) :
    Follows c (x :: xs) [.send addr (onWire c (exchangeFrame x)) o] where
  exchanges := by simp only [exchangeEvents, hsend]
  sends := (List.prefix_cons_inj _).mpr List.nil_prefix

/-- A FATAL receive is the last event. -/
theorem Follows.of_fatal_recv (hsend : ∀ code, classify c o ≠ .fatal code) (hrecv : classify c o' = .fatal code) :
    Follows c (x :: xs) [.send addr (onWire c (exchangeFrame x)) o, .wait ticks, .recv addr' len o' buf] where
  exchanges := by simp [exchangeEvents, hrecv]
  sends := (List.prefix_cons_inj _).mpr List.nil_prefix

/-- After an exchange with no FATAL outcome come the events of what is left of the plan. -/
theorem Follows.cons (hsend : ∀ code, classify c o ≠ .fatal code) (hrecv : ∀ code, classify c o' ≠ .fatal code)
    (h : Follows c xs events) :
    Follows c (x :: xs)
      (.send addr (onWire c (exchangeFrame x)) o :: .wait ticks :: .recv addr' len o' buf :: events) where
  exchanges := by
    rw [exchangeEvents]
    split
    · next hfatal => exact absurd hfatal (hsend _)
    · next hfatal _ => exact absurd hfatal (hrecv _)
    · exact h.exchanges
  sends := (List.prefix_cons_inj _).mpr h.sends

end

/-! ### The parts of a command -/

/-- The part, begun in s, adds to the trace events that follow the plan xs. -/
def Reply.Puts {α : Type} (s : State) (xs : List Exchange) (r : Reply α) : Prop :=
  ∃ events, r.state.trace = s.trace ++ events ∧ Follows s.cfg xs events

/-- A part that makes no event follows every plan. -/
theorem Reply.puts_of_trace_eq {α : Type} {s : State} {r : Reply α} (h : r.state.trace = s.trace)
    (xs : List Exchange) : r.Puts s xs :=
  ⟨[], h.trans (List.append_nil _).symm, .nil _ _⟩

theorem require_puts {p : Bool} {body : State → Reply (List Byte)} {s : State} {xs : List Exchange}
    (h : (body s).Puts s xs) : (require p body s).Puts s xs := by
  rw [require_eq]
  split
  · exact h
  · exact Reply.puts_of_trace_eq rfl xs

theorem awakeGate_puts {body : State → Reply (List Byte)} {s : State} {xs : List Exchange}
    (h : (body s).Puts s xs) : (awakeGate body s).Puts s xs := by
  rw [awakeGate_eq]
  split
  · exact h
  · exact Reply.puts_of_trace_eq rfl xs

/-- An exchange puts its own events first, and what follows it runs only where none of its outcomes was FATAL (R221). -/
theorem exchange_andThen_puts {x : Exchange} {xs : List Exchange} {s : State}
    {f : List Byte → State → Reply (List Byte)} (hf : ∀ p t, (f p t).Puts t xs) :
    ((exchange x s).andThen f).Puts s (x :: xs) := by
  by_cases htaken : PayloadTaken s.cfg x.pl
  · rw [exchange_eq x s htaken]
    split
    · next code hsend => exact ⟨[sendEvent x s], rfl, .of_fatal_send hsend⟩
    next hsend =>
    split
    · next code hrecv => exact ⟨[sendEvent x s, .wait x.delay, recvEvent x s], rfl, .of_fatal_recv hsend hrecv⟩
    next hrecv =>
    split
    · exact ⟨[sendEvent x s, .wait x.delay, recvEvent x s], rfl, .cons hsend hrecv (.nil _ _)⟩
    · next p _ =>
      obtain ⟨events, htrace, hfollows⟩ := hf p (during .recv (s.ctxStep + 1) (exchanged x s))
      exact ⟨sendEvent x s :: .wait x.delay :: recvEvent x s :: events, htrace.trans (List.append_assoc ..),
        .cons hsend hrecv hfollows⟩
  · rw [exchange, build_of_not_taken htaken]
    exact Reply.puts_of_trace_eq rfl _

theorem exchange_puts (x : Exchange) (s : State) : (exchange x s).Puts s [x] := by
  have hval : (exchange x s).andThen .val = exchange x s := by cases exchange x s <;> rfl
  exact hval ▸ exchange_andThen_puts fun _ _ => Reply.puts_of_trace_eq rfl _

theorem gather_puts (xs : List Exchange) (s : State) : (gather xs s).Puts s xs := by
  induction xs generalizing s with
  | nil => exact Reply.puts_of_trace_eq rfl _
  | cons x xs ih => exact exchange_andThen_puts fun p t => ih { t with acc := t.acc ++ p }

theorem output_puts {s : State} {xs : List Exchange} {r : Reply (List Byte)} (h : r.Puts s xs)
    (f : List Byte → List Byte) : (r.output f).Puts s xs := by
  cases r <;> exact h

/-- The frame the dispatcher builds before the gate is no event (R222). -/
theorem dispatch_puts (x : Exchange) (s : State) : (dispatch x s).Puts s [x] := by
  by_cases htaken : PayloadTaken s.cfg x.pl
  · rw [dispatch, build_of_taken htaken]
    exact awakeGate_puts (s := framed x s) (exchange_puts x (framed x s))
  · rw [dispatch_of_not_taken htaken]
    exact Reply.puts_of_trace_eq rfl _

theorem decodeLock_puts (word : List Byte) (s : State) : (decodeLock word s).Puts s [] := by
  refine Reply.puts_of_trace_eq ?_ _
  rw [decodeLock]
  split <;> rfl

/-! ### The commands -/

theorem newEvents_self (s : State) : newEvents s s = [] := List.drop_length

theorem operate_follows {body : State → Reply (List Byte)} {plan : Cfg → List Exchange} {s t : State}
    (h : (.next (operate body s) : Host.Outcome State Fault Refusal) = .next t)
    (hbody : ∀ u, (body u).Puts u (plan u.cfg)) : Follows s.cfg (plan s.cfg) (newEvents s t) := by
  obtain rfl := Host.Outcome.next.inj h
  cases hs : s.busy with
  | true =>
    rw [operate_of_busy body hs, newEvents_self]
    exact .nil _ _
  | false =>
    obtain ⟨events, htrace, hfollows⟩ := hbody (accepted s)
    rw [accepted_trace] at htrace
    rw [operate_of_idle body hs, newEvents, finish_trace, htrace, List.drop_left]
    exact hfollows

/-- A command puts on the port the exchanges of its plan, up to the one that ends it (R222, R240). -/
theorem exec_follows {i : Instr} {s t : State} (hi : isCommand i = true ∨ kindOf i = .wire) (h : exec i s = .next t) :
    Follows s.cfg (planOf s.cfg i) (newEvents s t) := by
  cases i with
  | transact opc p1 p2 pl n chk ex dly =>
    exact operate_follows (plan := (planOf · (.transact opc p1 p2 pl n chk ex dly))) h fun u =>
      require_puts (dispatch_puts (hostExchange opc p1 p2 pl n chk ex dly) u)
  | readWord zsel addr =>
    refine operate_follows (plan := (planOf · (.readWord zsel addr))) h fun u => ?_
    split
    · exact Reply.puts_of_trace_eq rfl _
    · next zone hzone =>
      rw [planOf, hzone]
      exact awakeGate_puts (exchange_puts _ u)
  | readSerial =>
    exact operate_follows (plan := serialPlan) h fun u => awakeGate_puts (output_puts (gather_puts _ u) _)
  | readConfigZone =>
    exact operate_follows (plan := configPlan) h fun u => awakeGate_puts (gather_puts _ u)
  | hash data =>
    exact operate_follows (plan := (hashPlan · data)) h fun u => awakeGate_puts (gather_puts _ u)
  | readLockStatus =>
    exact operate_follows (plan := (planOf · .readLockStatus)) h fun u =>
      awakeGate_puts (exchange_andThen_puts decodeLock_puts)
  | random | randomRange =>
    exact operate_follows (plan := ([randomExchange ·])) h fun u =>
      require_puts (awakeGate_puts (output_puts (exchange_puts _ u) _))
  | aesEncrypt slot blk =>
    exact operate_follows (plan := ([aesExchange · 0x00 slot blk])) h fun u =>
      require_puts (awakeGate_puts (exchange_puts _ u))
  | aesDecrypt slot blk =>
    exact operate_follows (plan := ([aesExchange · 0x01 slot blk])) h fun u =>
      require_puts (awakeGate_puts (exchange_puts _ u))
  | cmdWrite p1 p2 pl n chk ex dly =>
    exact operate_follows (plan := (planOf · (.cmdWrite p1 p2 pl n chk ex dly))) h fun u =>
      require_puts (dispatch_puts _ u)
  | cmdRead | cmdRandom | cmdShaStart | cmdShaUpdate | cmdShaEnd | cmdAesEnc | cmdAesDec =>
    exact operate_follows (plan := (planOf · _)) h fun u => dispatch_puts _ u
  | _ => rcases hi with hi | hi <;> cases hi

/-- The plan of a command has no more exchanges than R222, R241-R249, R251 and R252 give it. -/
theorem planOf_length_le (c : Cfg) (i : Instr) : (planOf c i).length ≤ exchangeBound i := by
  cases i with
  | readWord zsel addr =>
    rw [planOf, List.length_map]
    exact Option.length_toList_le
  | hash data => simp [planOf, hashPlan, exchangeBound, Config.shaChunk]
  | readConfigZone => simp [planOf, configPlan, exchangeBound, Config.configWords]
  | _ => simp [planOf, exchangeBound, wireExchange, serialPlan]

end Sys2Proof.Machine
end

section
/-! PROOF. The statement about the dispatcher (44_dispatcher.md). -/

namespace Sys2Proof.Proofs

open Machine

/-- Settles O52: a command's events follow its plan, whose length bounds its sends. -/
theorem oneExchangeInFlight : Obligations.OneExchangeInFlight := by
  intro i s t hi h
  obtain ⟨hexchanges, hsends⟩ := exec_follows hi h
  refine ⟨hexchanges, hsends, ?_⟩
  calc (sentBytes (newEvents s t)).length
      ≤ ((planOf s.cfg i).map fun x => onWire s.cfg (exchangeFrame x)).length := hsends.length_le
    _ = (planOf s.cfg i).length := List.length_map _
    _ ≤ exchangeBound i := planOf_length_le s.cfg i

end Sys2Proof.Proofs
end

section
/-! SUPPORT. A library operation is its plan of exchanges: what one exchange of a plan can do to it, and how an operation
that is a plan behind the Awake gate ends; the chunk plan of the hash. -/

namespace Sys2Proof.Machine

/-! ### One exchange of a plan (R240) -/

section
variable {done : List Byte → State → State} {x : Exchange} {xs : List Exchange} {gathered p : List Byte} {s : State}
  {code : U32} {e : Err}

theorem afterPlan_cons_of_fatal_send (h : classify s.cfg (outcomeAt s 0) = .fatal code) :
    afterPlan done (x :: xs) gathered s = errorEntry (.transport code) (sentOnly x s) := by
  simp only [afterPlan, h]

theorem afterPlan_cons_of_fatal_recv (hsend : GoesOn s.cfg (outcomeAt s 0))
    (h : classify s.cfg (outcomeAt s 1) = .fatal code) :
    afterPlan done (x :: xs) gathered s = errorEntry (.transport code) (unparsed x s) := by
  rw [goesOn_iff] at hsend
  simp only [afterPlan, h]

theorem afterPlan_cons_of_error (hsend : GoesOn s.cfg (outcomeAt s 0)) (hrecv : GoesOn s.cfg (outcomeAt s 1))
    (h : verdict x.expect x.check x.exact (exchangeBytes x s) = .error e) :
    afterPlan done (x :: xs) gathered s = errorEntry e (exchanged x s) := by
  rw [goesOn_iff] at hsend hrecv
  simp only [afterPlan, h]

theorem afterPlan_cons_of_ok (hsend : GoesOn s.cfg (outcomeAt s 0)) (hrecv : GoesOn s.cfg (outcomeAt s 1))
    (h : verdict x.expect x.check x.exact (exchangeBytes x s) = .ok p) :
    afterPlan done (x :: xs) gathered s = afterPlan done xs (gathered ++ p) (exchanged x s) := by
  rw [goesOn_iff] at hsend hrecv
  simp only [afterPlan, h]

end

/-- An outcome that is not FATAL lets the block go on (R63). -/
theorem goesOn_or_classify_fatal (c : Cfg) (o : XOutcome) : GoesOn c o ∨ ∃ code, classify c o = .fatal code := by
  simpa only [classify_eq_fatal_iff] using goesOn_or_fatalWith c o

/-- The first exchange of a plan ends it with its error, or its payload is gathered and the rest of the plan goes on. -/
theorem afterPlan_cons_cases (x : Exchange) (s : State) :
    (∃ e t, ∀ done xs gathered, afterPlan done (x :: xs) gathered s = errorEntry e t) ∨
    (∃ p, p.length = x.expect ∧
      ∀ done xs gathered, afterPlan done (x :: xs) gathered s = afterPlan done xs (gathered ++ p) (exchanged x s)) := by
  rcases goesOn_or_classify_fatal s.cfg (outcomeAt s 0) with hsend | ⟨code, hsend⟩
  case inr => exact .inl ⟨_, _, fun _ _ _ => afterPlan_cons_of_fatal_send hsend⟩
  rcases goesOn_or_classify_fatal s.cfg (outcomeAt s 1) with hrecv | ⟨code, hrecv⟩
  case inr => exact .inl ⟨_, _, fun _ _ _ => afterPlan_cons_of_fatal_recv hsend hrecv⟩
  cases hv : verdict x.expect x.check x.exact (exchangeBytes x s) with
  | error e => exact .inl ⟨_, _, fun _ _ _ => afterPlan_cons_of_error hsend hrecv hv⟩
  | ok p =>
    exact .inr ⟨p, verdict_length (exchangeBytes_length x s) hv, fun _ _ _ => afterPlan_cons_of_ok hsend hrecv hv⟩

/-- Nothing but the CFG a plan begins under tells two assemblies of its output apart (R34). -/
theorem afterPlan_congr_done {done done' : List Byte → State → State} {s : State}
    (h : ∀ p t, t.cfg = s.cfg → done p t = done' p t) (xs : List Exchange) (gathered : List Byte) :
    afterPlan done xs gathered s = afterPlan done' xs gathered s := by
  induction xs generalizing gathered s with
  | nil => exact h gathered s rfl
  | cons x xs ih =>
    rcases afterPlan_cons_cases x s with ⟨e, t, hends⟩ | ⟨p, -, hgoes⟩
    · rw [hends, hends]
    · rw [hgoes, hgoes]
      exact ih (s := exchanged x s) h (gathered ++ p)

/-! ### Behind the Awake gate (R197, R240) -/

theorem awakeGate_of_awake (body : State → Reply (List Byte)) {s : State} (h : s.session = .awake) :
    awakeGate body s = body s := by
  rw [awakeGate_eq, if_pos h]

theorem andThen_val_right (r : Reply (List Byte)) : r.andThen .val = r := by cases r <;> rfl

/-- A plan begun in an accepted operation leaves what it leaves begun at the host port. -/
theorem afterPlan_accepted {k : List Byte → State → Reply (List Byte)} (hk : RestedAlike k) (xs : List Exchange)
    (s : State) :
    afterPlan (fun p t => (k p t).finish) xs [] (rested (accepted s)) = afterPlan (fun p t => (k p t).finish) xs [] s :=
  afterPlan_rested _ (fun p t => (hk p t).symm) xs [] s

/-- A library operation that gathers a plan and then assembles its output with k (R242). -/
theorem operate_gather_andThen {plan : Cfg → List Exchange} {k : List Byte → State → Reply (List Byte)} {s : State}
    (hk : RestedAlike k) (hidle : s.busy = false) (hawake : s.session = .awake)
    (htaken : ∀ x ∈ plan s.cfg, PayloadTaken s.cfg x.pl) :
    operate (awakeGate fun t => (gather (plan t.cfg) t).andThen k) s =
      afterPlan (fun p t => (k p t).finish) (plan s.cfg) [] s := by
  have hgate : (accepted s).session = .awake := hawake
  rw [operate_of_idle _ hidle, awakeGate_of_awake _ hgate, accepted_cfg,
    gather_finish k hk _ (accepted s) htaken]
  exact afterPlan_accepted hk _ s

/-- A library operation that gathers a plan and returns its output as it is (R243, R249). -/
theorem operate_gather {plan : Cfg → List Exchange} {s : State} (hidle : s.busy = false) (hawake : s.session = .awake)
    (htaken : ∀ x ∈ plan s.cfg, PayloadTaken s.cfg x.pl) :
    operate (awakeGate fun t => gather (plan t.cfg) t) s = afterPlan complete (plan s.cfg) [] s := by
  have hrun := operate_gather_andThen (k := .val) (fun _ _ => rfl) hidle hawake htaken
  simp only [andThen_val_right] at hrun
  exact hrun

/-- A library operation that makes one exchange and then assembles its output with k (R245-R247). -/
theorem operate_exchange_andThen {body : State → Reply (List Byte)} {s : State} {x : Exchange}
    {k : List Byte → State → Reply (List Byte)}
    (hbody : body (accepted s) = awakeGate (fun t => (exchange x t).andThen k) (accepted s)) (hk : RestedAlike k)
    (hidle : s.busy = false) (hawake : s.session = .awake) (htaken : PayloadTaken s.cfg x.pl) :
    operate body s = afterPlan (fun p t => (k p t).finish) [x] [] s := by
  have hgate : (accepted s).session = .awake := hawake
  rw [operate_of_idle body hidle, hbody, awakeGate_of_awake _ hgate, exchange_finish k hk x (accepted s) htaken]
  exact afterPlan_accepted hk [x] s

/-- The decode of READ_LOCK_STATUS, run to its end, is the table of R244 with DOMAIN_DECODE for every other pair (R245). -/
theorem decodeLock_finish (w : List Byte) (s : State) :
    (decodeLock w s).finish =
      let cfgLock := w.getD s.cfg.lockIdxCfg.toNat 0
      let dataLock := w.getD s.cfg.lockIdxData.toNat 0
      if cfgLock = 0x00 ∧ dataLock = 0x00 then complete [0x00] s
      else if cfgLock = 0x00 ∧ dataLock = 0x55 then complete [0x01] s
      else if cfgLock = 0x55 ∧ dataLock = 0x55 then complete [0x02] s
      else errorEntry .domainDecode { s with result := [cfgLock, dataLock] } := by
  dsimp only
  rw [decodeLock, lockDecode]
  split_ifs <;> rfl

theorem decodeLock_restedAlike : RestedAlike decodeLock := by
  intro w s
  rw [decodeLock_finish, decodeLock_finish]
  rfl

/-! ### The plans that read words of a zone (R242, R243) -/

theorem serialPlan_taken (c : Cfg) : ∀ x ∈ serialPlan c, PayloadTaken c x.pl := by
  intro x hx
  simp only [serialPlan, List.mem_cons, List.not_mem_nil, or_false] at hx
  obtain rfl | rfl | rfl := hx
  all_goals exact readExchange_taken c _ _

theorem configPlan_taken (c : Cfg) : ∀ x ∈ configPlan c, PayloadTaken c x.pl := by
  intro x hx
  obtain ⟨w, -, rfl⟩ := List.mem_map.mp hx
  exact readExchange_taken c _ _

/-! ### The chunk plan (R248) -/

/-- The wire commands of a hash have the exchanges of its plan, in order. -/
theorem hashCommands_wireExchange (c : Cfg) (data : List Byte) :
    (hashCommands data).map (wireExchange c) = (hashPlan c data).map some := by
  simp [hashCommands, hashPlan, wireExchange, shaChunkOf, shaTail, Config.shaChunk, Function.comp_def]

/-- Chunk i of a message of at least i + 1 chunks is whole. -/
theorem chunk_length {n i : Nat} {data : List Byte} (hi : i < data.length / n) : ((data.drop (n * i)).take n).length = n := by
  have hwhole : n * (i + 1) ≤ data.length := (Nat.mul_le_mul_left n hi).trans (Nat.mul_div_le data.length n)
  rw [Nat.mul_succ] at hwhole
  rw [List.length_take, List.length_drop]
  omega

/-- What the whole chunks leave is the remainder. -/
theorem length_drop_chunks (n : Nat) (data : List Byte) :
    (data.drop (n * (data.length / n))).length = data.length % n := by
  rw [List.length_drop, Nat.mod_eq_sub]

/-- The first q chunks, one after another, are the first n * q bytes. -/
theorem flatten_chunks (n q : Nat) (data : List Byte) :
    ((List.range q).map fun i => (data.drop (n * i)).take n).flatten = data.take (n * q) := by
  induction q with
  | zero => rw [Nat.mul_zero, List.take_zero]; rfl
  | succ q ih =>
    rw [List.range_succ, List.map_append, List.flatten_append, ih, Nat.mul_succ, List.take_add]
    simp

/-- The commands of a hash have the arguments of their rows: whole chunks, and fewer than 64 bytes at the end. -/
theorem hashCommands_valid (c : Cfg) (data : List Byte) : ∀ i ∈ hashCommands data, ArgumentsValid c i := by
  intro i hi
  simp only [hashCommands, List.mem_append, List.mem_cons, List.mem_map, List.mem_range, List.not_mem_nil,
    or_false] at hi
  obtain (rfl | ⟨k, hk, rfl⟩) | rfl := hi
  · trivial
  · exact chunk_length hk
  · exact (length_drop_chunks 64 data).trans_lt (Nat.mod_lt _ (by decide))

theorem hashPlan_taken (c : Cfg) (data : List Byte) : ∀ x ∈ hashPlan c data, PayloadTaken c x.pl := by
  intro x hx
  have hmem : some x ∈ (hashCommands data).map (wireExchange c) :=
    hashCommands_wireExchange c data ▸ List.mem_map_of_mem hx
  obtain ⟨i, hi, hwire⟩ := List.mem_map.mp hmem
  exact wireExchange_taken hwire (hashCommands_valid c data i hi)

/-! ### The places of the chunk plan (R248) -/

section
variable (c : Cfg) (data : List Byte)

theorem hashPlan_length : (hashPlan c data).length = data.length / 64 + 2 := by
  simp [hashPlan, Config.shaChunk]

theorem hashPlan_getElem?_update {i : Nat} (hi : i < data.length / 64) :
    (hashPlan c data)[i + 1]? = some (shaUpdateExchange c (shaChunkOf data i)) := by
  simp [hashPlan, Config.shaChunk, List.getElem?_append, hi]

theorem hashPlan_getElem?_end :
    (hashPlan c data)[data.length / 64 + 1]? = some (shaEndExchange c (shaTail data)) := by
  simp [hashPlan, Config.shaChunk]

/-- The payload of the end phase is what is left, present or not (R248). -/
theorem payloadBytes_shaEnd (tail : List Byte) : payloadBytes (shaEndExchange c tail).pl = tail := by
  rw [shaEndExchange]
  split
  · next h => exact h.symm
  · rfl

theorem hashPlan_payloads :
    (hashPlan c data).map (fun x => payloadBytes x.pl) =
      [] :: ((List.range (data.length / 64)).map fun i => (data.drop (64 * i)).take 64) ++
        [data.drop (64 * (data.length / 64))] := by
  simp only [hashPlan, List.map_append, List.map_cons, List.map_nil, List.map_map, payloadBytes_shaEnd]
  rfl

/-- The start and the updates expect nothing, the end the digest (R92). -/
theorem hashPlan_expect :
    (hashPlan c data).map Exchange.expect = List.replicate (data.length / 64 + 1) 0 ++ [32] := by
  simp [hashPlan, Config.shaChunk, Function.comp_def, List.replicate_succ]

end

/-! ### Each library operation (R241-R252) -/

section
variable {s : State}

/-- READ_WORD of a zone ZSEL names (R241). -/
theorem exec_readWord {zsel : BitVec 2} {zone : Byte} (addr : U16) (hzone : zoneCode s.cfg zsel = some zone)
    (hidle : s.busy = false) (hawake : s.session = .awake) :
    exec (.readWord zsel addr) s = .next (afterPlan complete [readExchange s.cfg zone addr] [] s) := by
  refine congrArg Host.Outcome.next (operate_exchange ?_ hidle hawake (readExchange_taken s.cfg zone addr))
  rw [accepted_cfg, hzone]

/-- Three words, of which nine bytes are kept (R242). -/
theorem exec_readSerial (hidle : s.busy = false) (hawake : s.session = .awake) :
    exec .readSerial s = .next (afterPlan (fun r => complete (r.take 9)) (serialPlan s.cfg) [] s) :=
  congrArg Host.Outcome.next (operate_gather_andThen (plan := serialPlan) (k := fun r => .val (r.take 9))
    (fun _ _ => rfl) hidle hawake (serialPlan_taken s.cfg))

/-- The 32 words of the zone, as they are (R243). -/
theorem exec_readConfigZone (hidle : s.busy = false) (hawake : s.session = .awake) :
    exec .readConfigZone s = .next (afterPlan complete (configPlan s.cfg) [] s) :=
  congrArg Host.Outcome.next (operate_gather (plan := configPlan) hidle hawake (configPlan_taken s.cfg))

/-- One word, decoded (R245). -/
theorem exec_readLockStatus (hidle : s.busy = false) (hawake : s.session = .awake) :
    exec .readLockStatus s = .next (afterPlan (fun w t => (decodeLock w t).finish)
      [readExchange s.cfg s.cfg.zoneConfig s.cfg.lockWordAddr] [] s) :=
  congrArg Host.Outcome.next (operate_exchange_andThen rfl decodeLock_restedAlike hidle hawake
    (readExchange_taken s.cfg _ _))

/-- The whole response is read, whatever K is (R246). -/
theorem exec_random {k : Byte} (hlow : 1 ≤ k.toNat) (hhigh : k.toNat ≤ 32) (hidle : s.busy = false)
    (hawake : s.session = .awake) :
    exec (.random k) s =
      .next (afterPlan (fun r => complete (r.take k.toNat)) [randomExchange s.cfg] [] s) :=
  congrArg Host.Outcome.next (operate_exchange_andThen (k := fun r => .val (r.take k.toNat))
    (require_of_holds _ _ ((countInRange_iff k).mpr ⟨hlow, hhigh⟩)) (fun _ _ => rfl) hidle hawake (.inl rfl))

/-- The first eight bytes, reduced into the range (R247). -/
theorem exec_randomRange {lo hi : U64} (hle : lo.toNat ≤ hi.toNat) (hidle : s.busy = false)
    (hawake : s.session = .awake) :
    exec (.randomRange lo hi) s = .next (afterPlan
      (fun r => complete (tobe64 (reduceRange lo hi (be64 (r.take 8))))) [randomExchange s.cfg] [] s) :=
  congrArg Host.Outcome.next (operate_exchange_andThen
    (k := fun r => .val (tobe64 (reduceRange lo hi (be64 (r.take 8)))))
    (require_of_holds _ _ (decide_eq_true hle)) (fun _ _ => rfl) hidle hawake (.inl rfl))

/-- The chunk plan, whose outputs are the digest alone (R249). -/
theorem exec_hash (data : List Byte) (hidle : s.busy = false) (hawake : s.session = .awake) :
    exec (.hash data) s = .next (afterPlan complete (hashPlan s.cfg data) [] s) :=
  congrArg Host.Outcome.next (operate_gather (plan := (hashPlan · data)) hidle hawake (hashPlan_taken s.cfg data))

theorem aesExchange_taken (c : Cfg) (mode : Byte) (slot : U16) {blk : List Byte} (hblk : blk.length = 16) :
    PayloadTaken c (aesExchange c mode slot blk).pl :=
  payloadTaken_present c (by omega) (by omega)

/-- The exchange of mode 0x00 (R251). -/
theorem exec_aesEncrypt (slot : U16) {blk : List Byte} (hblk : blk.length = 16) (hidle : s.busy = false)
    (hawake : s.session = .awake) :
    exec (.aesEncrypt slot blk) s = .next (afterPlan complete [aesExchange s.cfg 0x00 slot blk] [] s) :=
  congrArg Host.Outcome.next (operate_exchange (require_of_holds _ _ (beq_iff_eq.mpr hblk)) hidle hawake
    (aesExchange_taken s.cfg 0x00 slot hblk))

/-- The exchange of mode 0x01 (R252). -/
theorem exec_aesDecrypt (slot : U16) {blk : List Byte} (hblk : blk.length = 16) (hidle : s.busy = false)
    (hawake : s.session = .awake) :
    exec (.aesDecrypt slot blk) s = .next (afterPlan complete [aesExchange s.cfg 0x01 slot blk] [] s) :=
  congrArg Host.Outcome.next (operate_exchange (require_of_holds _ _ (beq_iff_eq.mpr hblk)) hidle hawake
    (aesExchange_taken s.cfg 0x01 slot hblk))

end

end Sys2Proof.Machine
end

section
/-! SUPPORT. HASH beside its wire commands: a command that completes leaves nothing the next one reads, and one that fails
leaves what HASH would leave there. -/

namespace Sys2Proof.Machine

/-! ### What completion writes, a plan overwrites -/

/-- The reader raises no error that keeps a RESULT (R163-R168). -/
theorem verdict_error_keepsResult {n : Nat} {check exact : Bool} {buf : List Byte} {e : Err}
    (h : verdict n check exact buf = .error e) : e.keepsResult = false := by
  simp only [verdict] at h
  repeat' split at h
  all_goals cases h <;> rfl

theorem errorEntry_complete {e : Err} (h : e.keepsResult = false) (r : List Byte) (s : State) :
    errorEntry e (complete r s) = errorEntry e s := by
  simp only [errorEntry, h]
  rfl

theorem exchanged_complete (x : Exchange) (r : List Byte) (s : State) :
    exchanged x (complete r s) = complete r (exchanged x s) := rfl

/-- A plan leaves the same whether or not an operation has completed before it. -/
theorem afterPlan_complete (r : List Byte) (xs : List Exchange) (gathered : List Byte) (s : State) :
    afterPlan complete xs gathered (complete r s) = afterPlan complete xs gathered s := by
  induction xs generalizing gathered s with
  | nil => rfl
  | cons x xs ih =>
    rcases goesOn_or_classify_fatal s.cfg (outcomeAt s 0) with hsend | ⟨code, hsend⟩
    case inr =>
      rw [afterPlan_cons_of_fatal_send hsend, afterPlan_cons_of_fatal_send (s := complete r s) hsend]
      rfl
    rcases goesOn_or_classify_fatal s.cfg (outcomeAt s 1) with hrecv | ⟨code, hrecv⟩
    case inr =>
      rw [afterPlan_cons_of_fatal_recv hsend hrecv, afterPlan_cons_of_fatal_recv (s := complete r s) hsend hrecv]
      rfl
    cases hv : verdict x.expect x.check x.exact (exchangeBytes x s) with
    | error e =>
      rw [afterPlan_cons_of_error hsend hrecv hv, afterPlan_cons_of_error (s := complete r s) hsend hrecv hv,
        exchanged_complete, errorEntry_complete (verdict_error_keepsResult hv)]
    | ok p =>
      rw [afterPlan_cons_of_ok hsend hrecv hv, afterPlan_cons_of_ok (s := complete r s) hsend hrecv hv,
        exchanged_complete, ih]

/-! ### Wire commands issued one after another -/

theorem runUntilError_of_complete {i : Instr} {r : List Byte} {s t : State} (h : exec i s = .next (complete r t))
    (more : List Instr) : runUntilError (i :: more) s = runUntilError more (complete r t) := by
  rw [runUntilError, h]
  exact if_pos rfl

theorem runUntilError_of_errorEntry {i : Instr} {e : Err} {s t : State} (h : exec i s = .next (errorEntry e t))
    (more : List Instr) : runUntilError (i :: more) s = errorEntry e t := by
  rw [runUntilError, h]
  exact if_neg (err0_ne_zero e)

/-- Wire commands, of which only the last expects a payload, leave what their exchanges leave as one plan (R240). -/
theorem runUntilError_wire {is : List Instr} {xs : List Exchange} {s : State} (hne : is ≠ [])
    (hxs : is.map (wireExchange s.cfg) = xs.map some) (hvalid : ∀ i ∈ is, ArgumentsValid s.cfg i)
    (hempty : ∀ x ∈ xs.dropLast, x.expect = 0) (hidle : s.busy = false) (hawake : s.session = .awake) :
    runUntilError is s = afterPlan complete xs [] s := by
  induction is generalizing xs s with
  | nil => exact absurd rfl hne
  | cons i is ih =>
    obtain ⟨x, xs, rfl⟩ : ∃ x xs', xs = x :: xs' := by cases xs <;> simp at hxs ⊢
    obtain ⟨hx, hrest⟩ := List.cons.inj hxs
    have hexec := exec_wire hx (hvalid i List.mem_cons_self) hidle hawake
    rcases afterPlan_cons_cases x s with ⟨e, t, hends⟩ | ⟨p, hlen, hgoes⟩
    · rw [hends] at hexec ⊢
      exact runUntilError_of_errorEntry hexec is
    · rw [hgoes] at hexec ⊢
      rw [runUntilError_of_complete hexec is]
      cases is with
      | nil =>
        obtain rfl : xs = [] := by simpa using hrest
        rfl
      | cons j is =>
        have hcons : xs ≠ [] := by rintro rfl; simp at hrest
        rw [List.dropLast_cons_of_ne_nil hcons] at hempty
        obtain rfl : p = [] := List.eq_nil_of_length_eq_zero (hlen.trans (hempty x List.mem_cons_self))
        rw [List.append_nil, ← afterPlan_complete []]
        exact ih (List.cons_ne_nil j is) hrest (fun k hk => hvalid k (List.mem_cons_of_mem i hk))
          (fun z hz => hempty z (List.mem_cons_of_mem x hz)) rfl hawake

/-- Only the end of a hash expects a payload (R92). -/
theorem hashPlan_dropLast_expect (c : Cfg) (data : List Byte) : ∀ x ∈ (hashPlan c data).dropLast, x.expect = 0 := by
  intro x hx
  rw [hashPlan, List.dropLast_concat, List.mem_cons, List.mem_map] at hx
  obtain rfl | ⟨i, -, rfl⟩ := hx
  all_goals rfl

end Sys2Proof.Machine
end

section
/-! SUPPORT. Big-endian values, and the payloads of a plan whose every exchange is answered. -/

namespace Sys2Proof.Machine

/-! ### Big-endian values (R8, R247) -/

theorem beNat_concat (s : List Byte) (b : Byte) : beNat (s ++ [b]) = beNat s * 256 + b.toNat := by
  simp only [beNat, List.foldl_append, List.foldl_cons, List.foldl_nil]

theorem beNat_lt (s : List Byte) : beNat s < 256 ^ s.length := by
  induction s using List.reverseRecOn with
  | nil => exact Nat.one_pos
  | append_singleton s b ih =>
    have hb : b.toNat < 256 := b.isLt
    rw [beNat_concat, List.length_append, List.length_singleton, Nat.pow_succ]
    omega

theorem beNat_tobe64 (x : U64) : beNat (tobe64 x) = x.toNat := by
  have hx : x.toNat < 2 ^ 64 := x.isLt
  simp only [beNat, tobe64, List.foldl_cons, List.foldl_nil, BitVec.extractLsb'_toNat, Nat.shiftRight_eq_div_pow]
  omega

/-- Eight bytes read big-endian fit 64 bits. -/
theorem be64_take_toNat (p : List Byte) : (be64 (p.take 8)).toNat = beNat (p.take 8) := by
  have hlen : (p.take 8).length ≤ 8 := List.length_take_le 8 p
  have hlt : beNat (p.take 8) < 2 ^ 64 := (beNat_lt _).trans_le (Nat.pow_le_pow_right (by decide) hlen)
  exact Nat.mod_eq_of_lt hlt

/-- The reduction of R247 stays below MAX + 1, so it is exact in 64 bits. -/
theorem reduceRange_toNat {lo hi : U64} (h : lo.toNat ≤ hi.toNat) (v : U64) :
    (reduceRange lo hi v).toNat = lo.toNat + v.toNat % (hi.toNat - lo.toNat + 1) := by
  have hmod : v.toNat % (hi.toNat - lo.toNat + 1) < hi.toNat - lo.toNat + 1 := Nat.mod_lt _ (Nat.succ_pos _)
  have hhi : hi.toNat < 2 ^ 64 := hi.isLt
  exact Nat.mod_eq_of_lt (by omega)

/-! ### Plans answered throughout (R160, R240) -/

/-- One exchange answered, whatever is made of its payload. -/
theorem afterPlan_done_answered (done : List Byte → State → State) {x : Exchange} {s : State} {p : List Byte}
    (h : Answers s [x] [p]) : afterPlan done [x] [] s = done p (exchanged x s) := by
  simpa [exchangedAll] using afterPlan_of_answers done [x] [p] [] s h

/-- Payloads that are empty but for the last. -/
theorem eq_replicate_concat_of_lengths {ps : List (List Byte)} {n k : Nat}
    (h : ps.map List.length = List.replicate n 0 ++ [k]) :
    ∃ last, ps = List.replicate n [] ++ [last] ∧ last.length = k := by
  obtain ⟨front, back, rfl, hfront, hback⟩ := List.map_eq_append_iff.mp h
  obtain ⟨last, rfl, hlast⟩ := List.map_eq_singleton_iff.mp hback
  have hlen : front.length = n := by simpa using congrArg List.length hfront
  have hnil : ∀ p ∈ front, p = [] := fun p hp =>
    List.eq_nil_of_length_eq_zero (List.eq_of_mem_replicate (hfront ▸ List.mem_map_of_mem hp))
  exact ⟨last, congrArg (· ++ [last]) (List.eq_replicate_iff.mpr ⟨hlen, hnil⟩), hlast⟩

end Sys2Proof.Machine
end

section
/-! PROOF. The statements about the command library (45_library.md). -/

namespace Sys2Proof.Proofs

open Machine

/-- Settles O45: each operation is its plan, begun behind the Awake gate. -/
theorem libraryOperationsRunTheirPlans : Obligations.LibraryOperationsRunTheirPlans := by
  intro s hidle hawake
  refine ⟨fun zsel zone addr hzone => exec_readWord addr hzone hidle hawake, exec_readSerial hidle hawake,
    exec_readConfigZone hidle hawake, ?_, fun k hlow hhigh => exec_random hlow hhigh hidle hawake,
    fun lo hi hle => exec_randomRange hle hidle hawake, fun data => exec_hash data hidle hawake,
    fun slot blk hblk => ⟨exec_aesEncrypt slot hblk hidle hawake, exec_aesDecrypt slot hblk hidle hawake⟩⟩
  refine (exec_readLockStatus hidle hawake).trans (congrArg _ (afterPlan_congr_done (fun w t hcfg => ?_) _ _))
  rw [decodeLock, hcfg]
  dsimp only
  cases lockDecode (w.getD s.cfg.lockIdxCfg.toNat 0) (w.getD s.cfg.lockIdxData.toNat 0) with
  | none => rfl
  | some state => rfl

/-- Settles O47: the commands have the plan's exchanges (`hashCommands_wireExchange`), and only the last expects a payload. -/
theorem hashIsItsWireCommands : Obligations.HashIsItsWireCommands := by
  intro data s hidle hawake
  have hrun : runUntilError (hashCommands data) s = afterPlan complete (hashPlan s.cfg data) [] s :=
    runUntilError_wire (List.cons_ne_nil _ _) (hashCommands_wireExchange s.cfg data) (hashCommands_valid s.cfg data)
      (hashPlan_dropLast_expect s.cfg data) hidle hawake
  rw [exec_hash data hidle hawake, hrun]

/-- Settles O14: the rows of the table are distinct pairs. -/
theorem lockDecodeIsItsTable : Obligations.LockDecodeIsItsTable := by
  intro cfgLock dataLock
  rw [lockDecode]
  split_ifs with h0 h1 h2
  · obtain ⟨rfl, rfl⟩ := h0
    decide
  · obtain ⟨rfl, rfl⟩ := h1
    decide
  · obtain ⟨rfl, rfl⟩ := h2
    decide
  · exact ⟨iff_of_false nofun h0, iff_of_false nofun h1, iff_of_false nofun h2, iff_of_true rfl ⟨h0, h1, h2⟩⟩

/-- Settles O38: three words of four bytes, of which nine bytes are kept. -/
theorem readSerialCompletes : Obligations.ReadSerialCompletes := by
  intro s a b c hidle hawake plan h
  have hlengths : [a.length, b.length, c.length] = [4, 4, 4] := answers_lengths h
  obtain ⟨ha, hb, hc⟩ : a.length = 4 ∧ b.length = 4 ∧ c.length = 4 := by simpa using hlengths
  refine ⟨?_, ha, hb, hc⟩
  have hnine : ([a, b, c].flatten).take 9 = a ++ b ++ [c.getD 0 0] := by
    obtain ⟨c0, rest, rfl⟩ := List.exists_cons_of_length_eq_add_one hc
    simp [List.take_append, ha, hb, List.take_of_length_le]
  rw [exec_readSerial hidle hawake, serialPlan, afterPlan_of_answers _ plan [a, b, c] [] s h, List.nil_append, hnine]

/-- Settles O40: the one exchange, then the decode's table. -/
theorem lockStatusFollowsItsTable : Obligations.LockStatusFollowsItsTable := by
  intro s w hidle hawake x h cfgLock dataLock t
  refine ⟨(afterPlan_answered h).2, ?_⟩
  rw [exec_readLockStatus hidle hawake, afterPlan_done_answered _ h, decodeLock_finish]
  rfl

/-- Settles O41: the one exchange, of which K bytes are kept. -/
theorem randomCompletes : Obligations.RandomCompletes := by
  intro k s p hidle hawake hlow hhigh h
  rw [exec_random hlow hhigh hidle hawake, afterPlan_done_answered _ h]
  exact ⟨rfl, (afterPlan_answered h).2⟩

/-- Settles O42: the reduction is exact in 64 bits, so it lies in the range. -/
theorem randomRangeStaysInRange : Obligations.RandomRangeStaysInRange := by
  intro lo hi s p hidle hawake hle h
  have hvalue := reduceRange_toNat hle (be64 (p.take 8))
  have hmod : (be64 (p.take 8)).toNat % (hi.toNat - lo.toNat + 1) < hi.toNat - lo.toNat + 1 :=
    Nat.mod_lt _ (Nat.succ_pos _)
  refine ⟨reduceRange lo hi (be64 (p.take 8)), ?_, ?_, by omega, by omega, tobe64_length _, beNat_tobe64 _⟩
  · rw [exec_randomRange hle hidle hawake, afterPlan_done_answered _ h]
  · rw [hvalue, be64_take_toNat]

/-- Settles O43: the plan answered throughout, by payloads of which only the last is not empty. -/
theorem hashCompletes : Obligations.HashCompletes := by
  intro data s ps hidle hawake h
  obtain ⟨digest, rfl, hdigest⟩ := eq_replicate_concat_of_lengths ((answers_lengths h).trans (hashPlan_expect s.cfg data))
  refine ⟨digest, rfl, hdigest, ?_⟩
  rw [exec_hash data hidle hawake, afterPlan_of_answers _ _ _ _ _ h]
  simp

/-- Settles O46: the chunks and the tail are the message cut at 64 * q. -/
theorem hashPlanCoversTheMessage : Obligations.HashPlanCoversTheMessage := by
  intro c data plan q r
  have htail : (shaTail data).length = r := length_drop_chunks 64 data
  have hr : r < 64 := Nat.mod_lt _ (by decide)
  refine ⟨hashPlan_length c data, ?_, rfl, fun i hi => ?_, shaEndExchange c (shaTail data),
    hashPlan_getElem?_end c data, rfl, ?_, ?_, rfl, fun hzero => ?_, fun hne => ?_⟩
  · rw [hashPlan_payloads, List.flatten_append, List.flatten_cons, List.nil_append, flatten_chunks,
      List.flatten_singleton, List.take_append_drop]
  · refine ⟨shaChunkOf data i, hashPlan_getElem?_update c data hi, chunk_length hi, fun j hj => ?_⟩
    rw [shaChunkOf, Config.shaChunk, List.getElem?_take_of_lt hj, List.getElem?_drop]
  · rw [← htail] at hr ⊢
    exact Nat.mod_eq_of_lt (by omega)
  · rw [payloadBytes_shaEnd, htail]
  · have hnil : shaTail data = [] := List.eq_nil_of_length_eq_zero (htail.trans hzero)
    exact if_pos hnil
  · have hcons : shaTail data ≠ [] := fun hnil => hne (htail.symm.trans (congrArg List.length hnil))
    exact if_neg hcons

/-- Settles O44: one exchange in either mode. -/
theorem ciphersComplete : Obligations.CiphersComplete := by
  intro slot blk s p hidle hawake hblk
  refine ⟨fun h => ?_, fun h => ?_⟩
  · rw [exec_aesEncrypt slot hblk hidle hawake, afterPlan_done_answered _ h]
    exact ⟨rfl, (afterPlan_answered h).2⟩
  · rw [exec_aesDecrypt slot hblk hidle hawake, afterPlan_done_answered _ h]
    exact ⟨rfl, (afterPlan_answered h).2⟩

end Sys2Proof.Proofs
end

section
/-! SUPPORT. The codes an operation can end with: what the reader can raise, given what an exchange expects, checks and
requires, and how a plan of exchanges ends. -/

namespace Sys2Proof.Machine

/-! ### What an exchange can raise (R303-R308) -/

/-- The codes of the errors that end an exchange of a plan. No checksum is compared where fewer than two bytes are expected:
a data response has more bytes than the block then receives. -/
def raisedCodes (n : Nat) (check exact : Bool) : List Nat :=
  [3, 4, 7] ++ (if exact = false ∧ 3 ≤ n then [5] else []) ++ (if check = true ∧ 2 ≤ n then [6] else []) ++
    (if 0 < n then [8] else [])

section
variable {n : Nat} {check exact : Bool}

theorem mem_raisedCodes_iff {k : Nat} :
    k ∈ raisedCodes n check exact ↔ k = 3 ∨ k = 4 ∨ k = 7 ∨ (k = 5 ∧ exact = false ∧ 3 ≤ n) ∨
      (k = 6 ∧ check = true ∧ 2 ≤ n) ∨ (k = 8 ∧ 0 < n) := by
  simp only [raisedCodes, List.mem_append, List.mem_ite_nil_right, List.mem_cons, List.not_mem_nil, or_false]
  tauto

/-- The reader's errors, each under what it takes: a short count one that EX does not fix, a wrong trailer a data response
(R163-R168). -/
theorem verdict_error_code {buf : List Byte} {e : Err} (h : verdict n check exact buf = .error e) :
    e.code.toNat ∈ raisedCodes n check exact := by
  rw [mem_raisedCodes_iff]
  simp only [verdict] at h
  split at h
  · cases h; simp [Err.code]
  split at h
  · cases h; simp [Err.code]
  next hlong =>
  split at h
  · cases h; simp [Err.code]
  split at h
  · next hempty =>
    obtain ⟨-, -, hn⟩ := hempty
    cases h; simpa [Err.code] using hn
  split at h
  · cases h
  split at h
  · cases h; simp [Err.code]
  next hexact =>
  split at h
  · next hshort =>
    obtain ⟨hdata, hcount⟩ := hshort
    have hfree : exact = false := Bool.eq_false_iff.mpr fun hex => hexact ⟨hdata, hex, by omega⟩
    have hn : 3 ≤ n := by omega
    cases h; simpa [Err.code] using ⟨hfree, hn⟩
  split at h
  · next hsum =>
    obtain ⟨hdata, hcheck, -⟩ := hsum
    have hn : 2 ≤ n := by omega
    cases h; simpa [Err.code] using ⟨hcheck, hn⟩
  · cases h

/-! ### The rows of R317 -/

theorem raisedCodes_subset_exchangeCodes : raisedCodes n check exact ⊆ exchangeCodes n check exact := by
  intro k hk
  rw [mem_raisedCodes_iff] at hk
  simp only [exchangeCodes, List.mem_append, List.mem_ite_nil_right, List.mem_cons, List.not_mem_nil, or_false]
  tauto

/-- Every code of an exchange: what the library's rows have in common. -/
theorem raisedCodes_subset_all : raisedCodes n check exact ⊆ [3, 4, 5, 6, 7, 8] := by
  intro k hk
  rw [mem_raisedCodes_iff] at hk
  simp only [List.mem_cons, List.not_mem_nil, or_false]
  tauto

end

/-- The exchanges of an operation's plan raise only the codes of its row. -/
theorem planOf_raisedCodes_subset {c : Cfg} {i : Instr} {x : Exchange} (hx : x ∈ planOf c i) :
    raisedCodes x.expect x.check x.exact ⊆ codesOf i := by
  cases i with
  | transact | cmdWrite =>
    obtain rfl := List.mem_singleton.mp hx
    exact raisedCodes_subset_exchangeCodes
  | readWord | readSerial | readConfigZone | readLockStatus | random | randomRange | hash | cmdRead | cmdRandom
  | cmdShaEnd =>
    exact List.Subset.trans raisedCodes_subset_all (by simp [codesOf])
  | aesEncrypt | aesDecrypt | cmdAesEnc | cmdAesDec =>
    obtain rfl := List.mem_singleton.mp hx
    have hrow : raisedCodes 16 true true ⊆ [0, 2, 3, 4, 6, 7, 8] := by decide
    exact hrow
  | cmdShaStart | cmdShaUpdate =>
    obtain rfl := List.mem_singleton.mp hx
    have hrow : raisedCodes 0 true false ⊆ [0, 2, 3, 4, 7] := by decide
    exact hrow
  | _ => cases hx

/-- Every operation may succeed. -/
theorem zero_mem_codesOf (i : Instr) : 0 ∈ codesOf i := by cases i <;> exact List.mem_cons_self

/-- The commands and the wire commands have the Awake gate (R302). -/
theorem two_mem_codesOf {i : Instr} (hi : isCommand i = true ∨ kindOf i = .wire) : 2 ∈ codesOf i := by
  cases i with
  | crcCompute | crcValidate | frameBuild | wake | sleep | tokenWake | tokenSleep => rcases hi with hi | hi <;> cases hi
  | _ => exact List.mem_cons_of_mem _ List.mem_cons_self

/-! ### The code an operation ends with (R311, R312) -/

/-- ERR0.CODE is in the list. -/
def CodeIn (codes : List Nat) (t : State) : Prop := (errCode t.err0).toNat ∈ codes

section
variable {codes : List Nat} {i : Instr} {s t u : State}

theorem complete_codeIn (h : 0 ∈ codes) (r : List Byte) (s : State) : CodeIn codes (complete r s) := by
  rwa [CodeIn, complete_err0, errCode_packErr0]

theorem errorEntry_codeIn {e : Err} (h : e.code.toNat ∈ codes) (s : State) : CodeIn codes (errorEntry e s) := by
  rwa [CodeIn, errorEntry_err0, errCode_err0]

/-- A plan ends with what one of its exchanges raises, or as its output is assembled (R240). -/
theorem afterPlan_codeIn {done : List Byte → State → State} {xs : List Exchange}
    (hxs : ∀ x ∈ xs, raisedCodes x.expect x.check x.exact ⊆ codes) (hdone : ∀ p t, CodeIn codes (done p t))
    (gathered : List Byte) (s : State) : CodeIn codes (afterPlan done xs gathered s) := by
  induction xs generalizing gathered s with
  | nil => exact hdone gathered s
  | cons x xs ih =>
    obtain ⟨hx, hrest⟩ := List.forall_mem_cons.mp hxs
    have hport : 3 ∈ codes := hx (mem_raisedCodes_iff.mpr (.inl rfl))
    rcases goesOn_or_classify_fatal s.cfg (outcomeAt s 0) with hsend | ⟨code, hsend⟩
    case inr => rw [afterPlan_cons_of_fatal_send hsend]; exact errorEntry_codeIn hport _
    rcases goesOn_or_classify_fatal s.cfg (outcomeAt s 1) with hrecv | ⟨code, hrecv⟩
    case inr => rw [afterPlan_cons_of_fatal_recv hsend hrecv]; exact errorEntry_codeIn hport _
    cases hv : verdict x.expect x.check x.exact (exchangeBytes x s) with
    | error e =>
      rw [afterPlan_cons_of_error hsend hrecv hv]
      exact errorEntry_codeIn (hx (verdict_error_code hv)) _
    | ok p =>
      rw [afterPlan_cons_of_ok hsend hrecv hv]
      exact ih hrest _ _

/-- The decode of the lock word may end in DOMAIN_DECODE (R310). -/
theorem decodeLock_codeIn (w : List Byte) (t : State) : CodeIn (codesOf .readLockStatus) (decodeLock w t).finish := by
  rw [decodeLock]
  split
  · exact complete_codeIn (by decide) _ _
  · exact errorEntry_codeIn (by decide) _

/-- A command with valid arguments outside Awake ends in NOT_AWAKE (R302). -/
theorem exec_command_of_not_awake (hi : isCommand i = true ∨ kindOf i = .wire) (hvalid : ArgumentsValid s.cfg i)
    (hidle : s.busy = false) (hs : s.session ≠ .awake) : ∃ u, exec i s = .next (errorEntry .notAwake u) := by
  cases i with
  | transact opc p1 p2 pl n chk ex dly =>
    exact ⟨_, exec_transact_of_not_awake (x := ⟨opc, p1, p2, pl, n.toNat, chk, ex, dly⟩) hvalid hidle hs⟩
  | readWord | readSerial | readConfigZone | readLockStatus | random | randomRange | hash | aesEncrypt | aesDecrypt =>
    exact ⟨_, exec_library_of_not_awake rfl hvalid hidle hs⟩
  | cmdRead | cmdWrite | cmdRandom | cmdShaStart | cmdShaUpdate | cmdShaEnd | cmdAesEnc | cmdAesDec =>
    exact ⟨_, exec_wire_of_not_awake rfl hvalid hidle hs⟩
  | _ => rcases hi with hi | hi <;> cases hi

/-- A command with valid arguments while Awake is its plan, and the assembly of its output raises no code but those of its
row (R222, R240). -/
theorem exec_command_of_awake (hi : isCommand i = true ∨ kindOf i = .wire) (hvalid : ArgumentsValid s.cfg i)
    (hidle : s.busy = false) (hs : s.session = .awake) :
    ∃ done, (∀ p t, CodeIn (codesOf i) (done p t)) ∧ exec i s = .next (afterPlan done (planOf s.cfg i) [] s) := by
  have hassembled (f : List Byte → List Byte) (p : List Byte) (t : State) : CodeIn (codesOf i) (complete (f p) t) :=
    complete_codeIn (zero_mem_codesOf i) (f p) t
  cases i with
  | transact => exact ⟨complete, hassembled id, exec_transact hidle hs hvalid.1 hvalid.2⟩
  | readWord zsel addr =>
    obtain ⟨zone, hzone⟩ := zoneCode_eq_some s.cfg hvalid
    refine ⟨complete, hassembled id, (exec_readWord addr hzone hidle hs).trans ?_⟩
    rw [planOf, hzone]
    rfl
  | readSerial => exact ⟨_, hassembled _, exec_readSerial hidle hs⟩
  | readConfigZone => exact ⟨complete, hassembled id, exec_readConfigZone hidle hs⟩
  | readLockStatus => exact ⟨_, decodeLock_codeIn, exec_readLockStatus hidle hs⟩
  | random => exact ⟨_, hassembled _, exec_random hvalid.1 hvalid.2 hidle hs⟩
  | randomRange => exact ⟨_, hassembled _, exec_randomRange hvalid hidle hs⟩
  | hash data => exact ⟨complete, hassembled id, exec_hash data hidle hs⟩
  | aesEncrypt slot => exact ⟨complete, hassembled id, exec_aesEncrypt slot hvalid hidle hs⟩
  | aesDecrypt slot => exact ⟨complete, hassembled id, exec_aesDecrypt slot hvalid hidle hs⟩
  | cmdRead | cmdWrite | cmdRandom | cmdShaStart | cmdShaUpdate | cmdShaEnd | cmdAesEnc | cmdAesDec =>
    exact ⟨complete, hassembled id, exec_wire rfl hvalid hidle hs⟩
  | _ => rcases hi with hi | hi <;> cases hi

theorem codeIn_of_exec_eq (hu : CodeIn codes u) (hexec : exec i s = .next u) (h : exec i s = .next t) :
    CodeIn codes t :=
  Host.Outcome.next.inj (hexec.symm.trans h) ▸ hu

theorem exec_command_codeIn (hi : isCommand i = true ∨ kindOf i = .wire) (hvalid : ArgumentsValid s.cfg i)
    (hidle : s.busy = false) (h : exec i s = .next t) : CodeIn (codesOf i) t := by
  by_cases hs : s.session = .awake
  · obtain ⟨done, hdone, hexec⟩ := exec_command_of_awake hi hvalid hidle hs
    exact codeIn_of_exec_eq (afterPlan_codeIn (fun _ => planOf_raisedCodes_subset) hdone [] s) hexec h
  · obtain ⟨u, hexec⟩ := exec_command_of_not_awake hi hvalid hidle hs
    exact codeIn_of_exec_eq (errorEntry_codeIn (two_mem_codesOf hi) u) hexec h

end

theorem packErr0_zero : packErr0 0 0 0 = 0 := rfl

end Sys2Proof.Machine
end

section
/-! PROOF. The statements about errors and completion (60_exceptions.md). -/

namespace Sys2Proof.Proofs

open Machine

/-- Settles O10: with every field 0, ERR0 is 0. -/
theorem completionClearsTheError : Obligations.CompletionClearsTheError := by
  intro r s
  rw [complete, packErr0_zero]

section
variable {s t : State}

/-- WAKE's four ends (R192, R193), each by the code it leaves. -/
theorem wake_codeIn (hidle : s.busy = false) (h : exec .wake s = .next t) : CodeIn [0, 3, 9] t := by
  obtain ⟨hfatal, hfatal', hrefused, haccepted⟩ := wakeFollowsItsRule s hidle
  rcases goesOn_or_fatalWith s.cfg (outcomeAt s 0) with hsend | ⟨code, hcode⟩
  case inr => exact codeIn_of_exec_eq (errorEntry_codeIn (by simp [Err.code]) _) (hfatal code hcode) h
  rcases goesOn_or_fatalWith s.cfg (outcomeAt s 1) with hrecv | ⟨code, hcode⟩
  case inr => exact codeIn_of_exec_eq (errorEntry_codeIn (by simp [Err.code]) _) (hfatal' code hsend hcode) h
  by_cases hok : (bytesAt s 1 4).getD 0 0 = 4 ∧ (bytesAt s 1 4).getD 1 0 = s.cfg.stWake
  · obtain ⟨hcount, hstatus⟩ := hok
    exact codeIn_of_exec_eq (complete_codeIn (by decide) _ _) (haccepted hsend hrecv hcount hstatus) h
  · exact codeIn_of_exec_eq (errorEntry_codeIn (by simp [Err.code]) _) (hrefused hsend hrecv (not_and_or.mp hok)) h

/-- An operation with two ends, a FATAL send and success: SLEEP (R194) and the tokens (R89, R90). -/
theorem codeIn_of_send {i : Instr} {sent done : State}
    (hfatal : ∀ code, FatalWith s.cfg (outcomeAt s 0) code → exec i s = .next (errorEntry (.transport code) sent))
    (hgoes : GoesOn s.cfg (outcomeAt s 0) → exec i s = .next (complete [] done)) (h : exec i s = .next t) :
    CodeIn [0, 3] t := by
  rcases goesOn_or_fatalWith s.cfg (outcomeAt s 0) with hsend | ⟨code, hcode⟩
  · exact codeIn_of_exec_eq (complete_codeIn (by decide) _ _) (hgoes hsend) h
  · exact codeIn_of_exec_eq (errorEntry_codeIn (by simp [Err.code]) _) (hfatal code hcode) h

end

/-- Settles O21: the local operations complete, WAKE, SLEEP and the tokens end by their rules, and a command is its plan
behind the Awake gate (`exec_command_codeIn`). -/
theorem operationsRaiseOnlyTheirErrors : Obligations.OperationsRaiseOnlyTheirErrors := by
  intro i s t hidle hvalid h
  cases i with
  | crcCompute data => exact codeIn_of_exec_eq (complete_codeIn (zero_mem_codesOf _) _ _) (exec_crcCompute hidle data) h
  | crcValidate data => exact codeIn_of_exec_eq (complete_codeIn (zero_mem_codesOf _) _ _) (exec_crcValidate hidle data) h
  | frameBuild opc p1 p2 pl =>
    obtain ⟨hexec, -, -⟩ := frameBuildCompletes opc p1 p2 pl s hidle hvalid
    exact codeIn_of_exec_eq (complete_codeIn (zero_mem_codesOf _) _ _) hexec h
  | wake => exact wake_codeIn hidle h
  | sleep =>
    obtain ⟨hfatal, hgoes⟩ := sleepFollowsItsRule s hidle
    exact codeIn_of_send hfatal hgoes h
  | tokenWake =>
    obtain ⟨hfatal, hgoes⟩ := tokensAreOneSend s hidle
    exact codeIn_of_send (fun code hcode => (hfatal code hcode).1) (fun hsend => (hgoes hsend).1) h
  | tokenSleep =>
    obtain ⟨hfatal, hgoes⟩ := tokensAreOneSend s hidle
    exact codeIn_of_send (fun code hcode => (hfatal code hcode).2) (fun hsend => (hgoes hsend).2) h
  | _ => exact exec_command_codeIn (by simp [isCommand, kindOf]) hvalid hidle h

end Sys2Proof.Proofs
end

section
/-! PROOF. The statement about reset and hazards (70_reset_and_hazards.md). -/

namespace Sys2Proof.Proofs

open Machine

/-- Settles O17: every instruction enters through the host port, and a busy port answers with the state it was given
(`exec_of_busy`). The trace is a field of that state. -/
theorem busyPortTakesNothing : Obligations.BusyPortTakesNothing := by
  intro i s hbusy
  exact exec_of_busy i hbusy

end Sys2Proof.Proofs
end
